-- ==== Sys2Proof/Word.lean ====
section
/-! DEFINITION. The widths of BCHCORE's words (spec rules R8, R63): 32-bit command and response words, 16-bit
registers, table entries and response data, 8-bit buffer bytes, 4-bit register numbers. -/

namespace Sys2Proof

/-- A command or response word (R63, R78). -/
abbrev Word := BitVec 32

/-- A control register, a GF register, a table entry, a field element or an exponent (R8: element width 16). -/
abbrev Half := BitVec 16

/-- An element of a byte space (R45). -/
abbrev Byte := BitVec 8

/-- The number of a GF register, one of sixteen (R73: every value names a register). -/
abbrev GReg := BitVec 4

end Sys2Proof
end

