-- ==== Sys2Proof/Syntax.lean ====
section
/-! DEFINITION. The 21 commands of the opcode map (rule R74), one constructor per row of the opcode table, each with
the operand fields its format gives it (rules R64 to R73). A field keeps the width it has in the command word. -/

namespace Sys2Proof

/-- A command of BCHCORE (R74). -/
inductive Instr where
  /-- NOP (R82) -/
  | nop
  /-- CLEAR (R83) -/
  | clear
  /-- WRCSR csr, imm16 (R84) -/
  | wrcsr (csr : BitVec 8) (imm16 : Half)
  /-- RDCSR csr (R85) -/
  | rdcsr (csr : BitVec 8)
  /-- GFBUILD (R88) -/
  | gfbuild
  /-- DERIVE (R91) -/
  | derive
  /-- GFLI Gd, imm16 (R101) -/
  | gfli (rd : GReg) (imm16 : Half)
  /-- GFRD Gs (R102) -/
  | gfrd (rs1 : GReg)
  /-- GFADD Gd, Ga, Gb (R103) -/
  | gfadd (rd rs1 rs2 : GReg)
  /-- GFMUL Gd, Ga, Gb (R104) -/
  | gfmul (rd rs1 rs2 : GReg)
  /-- GFDIV Gd, Ga, Gb (R105) -/
  | gfdiv (rd rs1 rs2 : GReg)
  /-- GFLOG Gd, Ga (R106) -/
  | gflog (rd rs1 : GReg)
  /-- GFALOG Gd, Ga (R107) -/
  | gfalog (rd rs1 : GReg)
  /-- STB space, idx, data8 (R111) -/
  | stb (space : BitVec 4) (idx12 : BitVec 12) (data8 : Byte)
  /-- LD space, idx (R112) -/
  | ld (space : BitVec 4) (idx16 : Half)
  /-- ENCODE (R121) -/
  | encode
  /-- DECODE (R138) -/
  | decode
  /-- SYND (R129) -/
  | synd
  /-- BMSOLVE (R132) -/
  | bmsolve
  /-- CHIEN (R134) -/
  | chien
  /-- CORRECT (R137) -/
  | correct
  deriving DecidableEq, Repr

end Sys2Proof
end

