-- ==== Sys2Proof/WellFormed.lean ====
section
/-! DEFINITION. Which commands name only registers and address spaces that exist and that the command may use
(rule R76). Every 32-bit word that selects a row decodes (rule R75); a word that selects a row but names a reserved or
forbidden register or space decodes to an ill-formed `Instr`, and executing it raises `IllegalCommand` (rule R150). -/

namespace Sys2Proof

/-- The control-register numbers `RDCSR` may name: 0x00 to 0x0E (R25, R76 (a)). -/
def csrReadable (csr : BitVec 8) : Bool := decide (csr.toNat ≤ 0x0E)

/-- The control-register numbers `WRCSR` may name: 0x00 to 0x03 (R25, R76 (a) and (b)). -/
def csrWritable (csr : BitVec 8) : Bool := decide (csr.toNat ≤ 0x03)

/-- The address spaces `LD` may name: 0 to 8 (R45, R76 (c)). -/
def spaceReadable (space : BitVec 4) : Bool := decide (space.toNat ≤ 8)

/-- The address spaces `STB` may name: 0 and 1 (R45, R76 (d)). -/
def spaceWritable (space : BitVec 4) : Bool := decide (space.toNat ≤ 1)

/-- No field of the command is illegal by rule R76. -/
def WellFormed (i : Instr) : Bool :=
  match i with
  | .wrcsr csr _ => csrWritable csr
  | .rdcsr csr => csrReadable csr
  | .stb space _ _ => spaceWritable space
  | .ld space _ => spaceReadable space
  | .nop => true
  | .clear => true
  | .gfbuild => true
  | .derive => true
  | .gfli _ _ => true
  | .gfrd _ => true
  | .gfadd _ _ _ => true
  | .gfmul _ _ _ => true
  | .gfdiv _ _ _ => true
  | .gflog _ _ => true
  | .gfalog _ _ => true
  | .encode => true
  | .decode => true
  | .synd => true
  | .bmsolve => true
  | .chien => true
  | .correct => true

end Sys2Proof
end

