-- ==== Sys2Proof/Decode.lean ====
section
/-! DEFINITION. The command decoder, total on all 2^32 words (rules R63 to R75), rejecting by name, and after it the
encoder, written from the same formats (rules R64 to R74). -/

namespace Sys2Proof

/-- Why a word selects no row of the opcode map (R75): its opcode is reserved, or a bit that its format marks zero
is 1. Either way the command raises `IllegalCommand` (R150). -/
inductive DecodeError where
  /-- R75 (a): bits 31:24 are no opcode of R74. -/
  | reservedOpcode (opcode : BitVec 8)
  /-- R75 (b): a defined opcode with a 1 in a must-be-zero bit. -/
  | nonzeroReservedBits (opcode : BitVec 8)
  deriving DecidableEq, Repr

/-- `w[lo+width-1 : lo]` (R10). -/
def field (w : Word) (lo width : Nat) : BitVec width := w.extractLsb' lo width

/-- The checked result of a format: the instruction if the bits the format marks zero are zero (R63). -/
def zeroBits (opcode : BitVec 8) (zero : Bool) (i : Instr) : Except DecodeError Instr :=
  if zero then .ok i else .error (.nonzeroReservedBits opcode)

/-- Format Z (R64): bits 23:0 zero. -/
def formatZ (w : Word) (i : Instr) : Except DecodeError Instr :=
  zeroBits (field w 24 8) (field w 0 24 == 0) i

/-- The decoder: opcode in bits 31:24, then the format the opcode selects (R63, R74, R75). -/
def decode (w : Word) : Except DecodeError Instr :=
  match (field w 24 8).toNat with
  | 0x00 => formatZ w .nop
  | 0x01 => formatZ w .clear
  -- format C (R65)
  | 0x02 => .ok (.wrcsr (field w 16 8) (field w 0 16))
  -- format CR (R66)
  | 0x03 => zeroBits 0x03 (field w 0 16 == 0) (.rdcsr (field w 16 8))
  | 0x10 => formatZ w .gfbuild
  | 0x11 => formatZ w .derive
  -- format I (R67)
  | 0x20 => zeroBits 0x20 (field w 16 4 == 0) (.gfli (field w 20 4) (field w 0 16))
  -- format R1 (R68)
  | 0x21 => zeroBits 0x21 (field w 20 4 == 0 && field w 0 16 == 0) (.gfrd (field w 16 4))
  -- format R3 (R70)
  | 0x22 => zeroBits 0x22 (field w 0 12 == 0) (.gfadd (field w 20 4) (field w 16 4) (field w 12 4))
  | 0x23 => zeroBits 0x23 (field w 0 12 == 0) (.gfmul (field w 20 4) (field w 16 4) (field w 12 4))
  | 0x24 => zeroBits 0x24 (field w 0 12 == 0) (.gfdiv (field w 20 4) (field w 16 4) (field w 12 4))
  -- format R2 (R69)
  | 0x25 => zeroBits 0x25 (field w 0 16 == 0) (.gflog (field w 20 4) (field w 16 4))
  | 0x26 => zeroBits 0x26 (field w 0 16 == 0) (.gfalog (field w 20 4) (field w 16 4))
  -- format S (R71)
  | 0x30 => .ok (.stb (field w 20 4) (field w 8 12) (field w 0 8))
  -- format L (R72)
  | 0x31 => zeroBits 0x31 (field w 16 4 == 0) (.ld (field w 20 4) (field w 0 16))
  | 0x40 => formatZ w .encode
  | 0x41 => formatZ w .decode
  | 0x42 => formatZ w .synd
  | 0x43 => formatZ w .bmsolve
  | 0x44 => formatZ w .chien
  | 0x45 => formatZ w .correct
  | _ => .error (.reservedOpcode (field w 24 8))

/-- The instruction the decoder reads from an opcode-table word: a command word is delivered whole, bit 31 to bit 0
(R52), so the 32 bits are the word itself; bits at and above `nbits` are 0. -/
def decodeTableWord (nbits w : Nat) : Option Instr :=
  (decode (BitVec.ofNat 32 (w % 2 ^ nbits))).toOption

/-- The encoder (R64 to R74): the fields of the format from bit 31 down, must-be-zero bits 0. -/
def encode (i : Instr) : Word :=
  match i with
  | .nop => 0x00#8 ++ 0#24
  | .clear => 0x01#8 ++ 0#24
  | .wrcsr csr imm16 => 0x02#8 ++ csr ++ imm16
  | .rdcsr csr => 0x03#8 ++ csr ++ 0#16
  | .gfbuild => 0x10#8 ++ 0#24
  | .derive => 0x11#8 ++ 0#24
  | .gfli rd imm16 => 0x20#8 ++ rd ++ 0#4 ++ imm16
  | .gfrd rs1 => 0x21#8 ++ 0#4 ++ rs1 ++ 0#16
  | .gfadd rd rs1 rs2 => 0x22#8 ++ rd ++ rs1 ++ rs2 ++ 0#12
  | .gfmul rd rs1 rs2 => 0x23#8 ++ rd ++ rs1 ++ rs2 ++ 0#12
  | .gfdiv rd rs1 rs2 => 0x24#8 ++ rd ++ rs1 ++ rs2 ++ 0#12
  | .gflog rd rs1 => 0x25#8 ++ rd ++ rs1 ++ 0#16
  | .gfalog rd rs1 => 0x26#8 ++ rd ++ rs1 ++ 0#16
  | .stb space idx12 data8 => 0x30#8 ++ space ++ idx12 ++ data8
  | .ld space idx16 => 0x31#8 ++ space ++ 0#4 ++ idx16
  | .encode => 0x40#8 ++ 0#24
  | .decode => 0x41#8 ++ 0#24
  | .synd => 0x42#8 ++ 0#24
  | .bmsolve => 0x43#8 ++ 0#24
  | .chien => 0x44#8 ++ 0#24
  | .correct => 0x45#8 ++ 0#24

end Sys2Proof
end

