-- ==== Sys2Proof/Config.lean ====
section
/-! DEFINITION. The implementation parameters of rule R8, each at the value rule R8 says BCHCORE takes, and the
default primitive polynomials of rule R87. The spec leaves no other value open (rule R175), so there is no
uninterpreted constant here. -/

namespace Sys2Proof.Config

/-- `M_MIN`: the smallest supported field order (R8, decision D2). -/
def mMin : Nat := 2

/-- `M_MAX`: the largest supported field order (R8, decision D2). -/
def mMax : Nat := 15

/-- `LOGZ`: the sentinel stored as the logarithm of 0, which is n (R8, R27, decision D4). -/
def logZero (n : Nat) : Nat := n

/-- `ROOT0`: the first exponent of the 2t consecutive roots (R8, R89, decision D5). -/
def root0 : Nat := 1

/-- `DEFPOLY[m]`: the primitive polynomial used when `POLY` is 0 (the table of R87, decision D3); 0 outside the
table, which `GFBUILD` never consults because it has refused such an m before (R88). -/
def defPoly (m : Nat) : Nat :=
  match m with
  | 2 => 0x0007
  | 3 => 0x000B
  | 4 => 0x0013
  | 5 => 0x0025
  | 6 => 0x0043
  | 7 => 0x0083
  | 8 => 0x011D
  | 9 => 0x0211
  | 10 => 0x0409
  | 11 => 0x0805
  | 12 => 0x1053
  | 13 => 0x201B
  | 14 => 0x402B
  | 15 => 0x8003
  | _ => 0

end Sys2Proof.Config
end

