-- ==== Sys2Proof/Machine/State.lean ====
section
/-! DEFINITION. The state of BCHCORE (rule R16), what is on its command port, the errors a command can report (rule
R145), the reasons a step of the model could stop, and the state after reset (rule R43). -/

namespace Sys2Proof.Machine

/-- `CFGSTATE` (2 bits, R17): how far configuration has gone. The value 3 never occurs. -/
inductive CfgState where
  /-- 0: no field built -/
  | empty
  /-- 1: GF tables built, code parameters not derived -/
  | field
  /-- 2: generator polynomial and reduction table built -/
  | code
  deriving DecidableEq, Repr

/-- `STAGE` (3 bits, R18): which decoder stage last completed. The values 6 and 7 never occur. -/
inductive Stage where
  /-- 0: nothing computed, or a buffer was written since -/
  | idle
  /-- 1: syndromes valid -/
  | synd
  /-- 2: error-locator polynomial valid -/
  | locator
  /-- 3: locations valid -/
  | roots
  /-- 4: decoding finished with success -/
  | done
  /-- 5: the last decoding attempt ended with `UncorrectableError` -/
  | failed
  deriving DecidableEq, Repr

/-- The errors a command can end with (R145). An error is no stop of the machine: it is reported in the response word
and in `LASTERR`, and the next command executes normally (R155). -/
inductive Err where
  | invalidFieldOrder
  | capacityExceeded
  | invalidInputLength
  | uncorrectableError
  | illegalCommand
  | badSequence
  | gfDivideByZero
  | operandRange
  deriving DecidableEq, Repr

/-- The control registers of R25, by name. -/
inductive Csr where
  | m | poly | t | k | cfgstate | n | ebits | ebytes | kbytes | stage | flags | nerr | elpdeg | lasterr | prim
  deriving DecidableEq, Repr

/-- The nine address spaces of R45, by name. -/
inductive Space where
  | msg | ecc | eccs | syn | elp | loc | log | antilog | gen
  deriving DecidableEq, Repr

/-- What arrives at the block from outside (R5, R6, R164): a command word on the command port, or the hardware reset
signal. -/
inductive PortEvent where
  /-- The host presents one 32-bit command word (R5). -/
  | command (w : Word)
  /-- The hardware reset of the block (R164 (a)). -/
  | reset
  deriving DecidableEq, Repr

/-- A byte buffer: the bytes that are not zero, as (index, byte) pairs (`Host.Cell`), indices strictly rising. A byte
that is not listed is 0, what R91 and R113 say a byte holds that was not stored since `DERIVE`. -/
abbrev Memory := List Host.Cell

/-- The canonical form of a buffer: indices strictly rising, no listed byte equal to what an unlisted index reads as.
Equal buffers are then equal lists. -/
def Memory.wf (mem : Memory) : Bool :=
  match mem with
  | [] => true
  | [(_, v)] => v != 0
  | (a, v) :: (b, w) :: rest => v != 0 && decide (a < b) && Memory.wf ((b, w) :: rest)

/-- `BMS`, the Berlekamp-Massey solver's private scratch (R37): the last-change polynomial `B` with its degree `LB`,
the discrepancy `pd` at the last change, the iteration marker `pp` and the copy buffer `TC`. Not visible. -/
structure BmScratch where
  b : List Half
  lb : Nat
  pd : Half
  pp : Int
  tc : List Half
  deriving DecidableEq, Repr

/-- The complete state of BCHCORE (R16), less `CACHE`, of which the spec gives neither size nor contents and which R38
tells a model to omit (log entry 5); and, as its first field, what the host has put on the port. -/
structure State where
  /-- MODEL FIELD, no state of BCHCORE (R19, R42): what the host presents, oldest first, not yet executed. -/
  port : List PortEvent
  /-- `CFGSTATE`, CSR 0x04 (R17) -/
  cfgstate : CfgState
  /-- `STAGE`, CSR 0x09 (R18) -/
  stage : Stage
  /-- `M`, CSR 0x00 (R23) -/
  m : Half
  /-- `POLY`, CSR 0x01 (R23) -/
  poly : Half
  /-- `T`, CSR 0x02 (R23) -/
  t : Half
  /-- `K`, CSR 0x03 (R23) -/
  k : Half
  /-- `N`, CSR 0x05 (R24) -/
  n : Half
  /-- `PRIM`, CSR 0x0E (R24) -/
  prim : Half
  /-- `EBITS`, CSR 0x06 (R24) -/
  ebits : Half
  /-- `EBYTES`, CSR 0x07 (R24) -/
  ebytes : Half
  /-- `KBYTES`, CSR 0x08 (R24) -/
  kbytes : Half
  /-- `FLAGS` bit 0, `SYNZ`; bits 15:1 of CSR 0x0A are hard-wired to 0 (R20, R25) -/
  synz : Bool
  /-- `NERR`, CSR 0x0B (R21) -/
  nerr : Half
  /-- `ELPDEG`, CSR 0x0C (R21) -/
  elpdeg : Half
  /-- `LASTERR`, CSR 0x0D (R22) -/
  lasterr : BitVec 8
  /-- `RSP`, the response port (R22, R78) -/
  rsp : Word
  /-- `G0` .. `G15` (R26) -/
  g : Vector Half 16
  /-- `LOG`, space 6 (R27) -/
  log : Array Half
  /-- `ANTILOG`, space 7 (R27) -/
  antilog : Array Half
  /-- `GEN`, space 8: the polynomial over GF(2) as the integer whose bit j is the coefficient of x^j (R11, R29) -/
  gen : Nat
  /-- `MOD8`: 256 entries of E bits, not visible (R30) -/
  mod8 : Array Nat
  /-- `MSG`, space 0 (R31) -/
  msg : Memory
  /-- `ECC`, space 1 (R32) -/
  ecc : Memory
  /-- `ECCS`, space 2 (R33) -/
  eccs : Memory
  /-- `REM`: E bits, not visible (R34) -/
  rem : Nat
  /-- `SYN`, space 3: entry i holds S_(i+1) (R35, R51) -/
  syn : List Half
  /-- `ELP.C`, space 4: entry j is the coefficient of x^j (R36) -/
  elp : List Half
  /-- `LOC`, space 5 (R39) -/
  loc : List Half
  /-- `BMS`, not visible (R37) -/
  bms : BmScratch
  deriving DecidableEq, Repr

/-- The reasons a step could stop with a fault. There is none: every command word in every state has exactly one
response and one next state (R175), and every error is reported in the response (R155). A type without
constructors is safe: no step can answer a fault. -/
inductive Fault where
  deriving DecidableEq, Repr

/-- The reasons a step could be refused. -/
inductive Refusal where
  /-- An instruction of the opcode table that has no meaning yet. No arm of `exec` raises it: all 21 are modelled.
  Safe: it could only stop a run. -/
  | notModelled (mnemonic : String)
  deriving DecidableEq, Repr

/-- The machine right after reset (R43, R165): every control register 0, hence `CFGSTATE` = EMPTY and `STAGE` = IDLE,
`RSP` = 0. The items that R43 leaves unspecified and unobservable (the G registers, tables, buffers and
scratch) are given zero or nothing (DESIGN CHOICE, log entry 1; R43 allows any fixed value). The port is empty: the
block waits for the first command (R165, log entry 2). -/
def State.reset : State :=
  { port := []
    cfgstate := .empty
    stage := .idle
    m := 0, poly := 0, t := 0, k := 0
    n := 0, prim := 0, ebits := 0, ebytes := 0, kbytes := 0
    synz := false, nerr := 0, elpdeg := 0
    lasterr := 0, rsp := 0
    g := Vector.replicate 16 0
    log := #[], antilog := #[]
    gen := 0, mod8 := #[]
    msg := [], ecc := [], eccs := []
    rem := 0
    syn := [], elp := [], loc := []
    bms := { b := [], lb := 0, pd := 0, pp := 0, tc := [] } }

end Sys2Proof.Machine
end

