-- ==== Sys2Proof/Machine/Ops.lean ====
section
/-! DEFINITION. The shared operations: the byte buffers, the GF registers, and how a command ends (step 5 of the
execution frame of rule R81), with success or with an error. -/

namespace Sys2Proof.Machine

/-! ## The numbers of the sequencing registers and of the errors -/

/-- The value of `CFGSTATE` as read (R17). -/
def CfgState.value (c : CfgState) : BitVec 2 :=
  match c with
  | .empty => 0
  | .field => 1
  | .code => 2

/-- The value of `STAGE` as read (R18). -/
def Stage.value (st : Stage) : BitVec 3 :=
  match st with
  | .idle => 0
  | .synd => 1
  | .locator => 2
  | .roots => 3
  | .done => 4
  | .failed => 5

/-- The error codes of R145. -/
def Err.code (e : Err) : BitVec 8 :=
  match e with
  | .invalidFieldOrder => 1
  | .capacityExceeded => 2
  | .invalidInputLength => 3
  | .uncorrectableError => 4
  | .illegalCommand => 5
  | .badSequence => 6
  | .gfDivideByZero => 7
  | .operandRange => 8

/-! ## Byte buffers (R13 `MemRead` and `MemWrite`, R45) -/

/-- What an unlisted index of a buffer reads as: 0, since `DERIVE` sets `MSG`, `ECC` and `ECCS` to zero and a byte not
stored since then holds 0 (R91, R113). -/
def Memory.unlisted : Byte := 0

/-- The byte at an index. -/
def Memory.read (mem : Memory) (idx : Nat) : Byte :=
  match mem with
  | [] => Memory.unlisted
  | (a, v) :: rest => if a = idx then v else if idx < a then Memory.unlisted else Memory.read rest idx

/-- Put `v` before the cells `mem`, all at higher indices: listed only if it is not what an unlisted index reads as. -/
def Memory.cons (idx : Nat) (v : Byte) (mem : Memory) : Memory :=
  if v = Memory.unlisted then mem else (idx, v) :: mem

/-- Store a byte, keeping the canonical form. -/
def Memory.write (mem : Memory) (idx : Nat) (v : Byte) : Memory :=
  match mem with
  | [] => Memory.cons idx v []
  | (a, u) :: rest =>
    if idx < a then Memory.cons idx v ((a, u) :: rest)
    else if a = idx then Memory.cons idx v rest
    else (a, u) :: Memory.write rest idx v

/-- Store the bytes `bs` at `idx`, `idx + 1`, .. -/
def Memory.writeBytes (mem : Memory) (idx : Nat) (bs : List Byte) : Memory :=
  match bs with
  | [] => mem
  | b :: rest => Memory.writeBytes (Memory.write mem idx b) (idx + 1) rest

/-- Buffer bit index `j`: bit `7 - (j mod 8)` of the byte at index `floor(j / 8)` (R47 `MSGBIT`, `ECCBIT`). -/
def Memory.bit (mem : Memory) (j : Nat) : Bool := (Memory.read mem (j / 8)).getMsbD (j % 8)

/-- Flip buffer bit index `j` (R136: the byte is xored with `0x80 >> (j mod 8)`). -/
def Memory.flipBit (mem : Memory) (j : Nat) : Memory :=
  Memory.write mem (j / 8) (Memory.read mem (j / 8) ^^^ (0x80#8 >>> (j % 8)))

/-! ## GF registers (R26): sixteen ordinary registers, none hard-wired -/

/-- `G[r]` -/
def State.readG (s : State) (r : GReg) : Half := s.g[r.toNat]'r.isLt

/-- `G[r] <- v` -/
def State.setG (s : State) (r : GReg) (v : Half) : State := { s with g := s.g.set r.toNat v r.isLt }

/-- `CSR.STAGE <- st` (R18). -/
def State.setStage (s : State) (st : Stage) : State := { s with stage := st }

/-! ## How a command ends (step 5 of R81; R22, R78, R155) -/

/-- The response word `{code, 0x00, data}` (R78). -/
def response (code : BitVec 8) (data : Half) : Word := code ++ 0#8 ++ data

/-- Step 5 of R81: `RSP <- {code, 0x00, data}`; `LASTERR <- code`. -/
def State.report (s : State) (code : BitVec 8) (data : Half) : State :=
  { s with rsp := response code data, lasterr := code }

/-- A command that succeeds with response data `data`. -/
def State.respond (s : State) (data : Half) : State := s.report 0 data

/-- TAKING AN EXCEPTION, the one shared operation (R155): the response carries the code and data 0, `LASTERR` records
the code, and nothing else is saved or changed. There is no handler, so there is no return from one (R156). -/
def State.raise (s : State) (e : Err) : State := s.report e.code 0

/-- What steps 2 to 4 of R81 leave: success with response data, or an error, each with the state the
command's own effects have made. -/
inductive Result where
  | ok (data : Half) (s : State)
  | err (e : Err) (s : State)
  deriving DecidableEq, Repr

/-- The end of every command (step 5 of R81), after every read it makes. Every command has a next state (R175). -/
def Result.finish (r : Result) : Host.Outcome State Fault Refusal :=
  match r with
  | .ok data s => .next (s.respond data)
  | .err e s => .next (s.raise e)

/-- Every piece of state of BCHCORE at its reset value (R43, R83, R165); what the host has put on the port is no state
of BCHCORE (R42) and stays. -/
def State.clear (s : State) : State := { State.reset with port := s.port }

end Sys2Proof.Machine
end

