-- ==== Sys2Proof/Machine/Divider.lean ====
section
/-! DEFINITION. The generator-polynomial divider that encoder and syndrome calculator share (rules R115 to R120). -/

namespace Sys2Proof.Machine

/-- What the divider reads: g(x), its degree E, and the table `MOD8`. -/
structure Divider where
  gen : Nat
  e : Nat
  mod8 : Array Nat
  deriving DecidableEq, Repr

/-- The divider of the configured code. -/
def State.divider (s : State) : Divider := { gen := s.gen, e := s.ebits.toNat, mod8 := s.mod8 }

/-- The bit-serial step (R115): fb is bit E-1 of R xor the message bit; GL is GEN mod 2^E. -/
def Divider.step1 (D : Divider) (R : Nat) (b : Bool) : Nat :=
  if R.testBit (D.e - 1) ^^ b then ((R <<< 1) % 2 ^ D.e) ^^^ (D.gen % 2 ^ D.e) else (R <<< 1) % 2 ^ D.e

/-- The byte step (R117), through the table. -/
def Divider.step8 (D : Divider) (R : Nat) (d : Byte) : Nat :=
  ((R <<< 8) % 2 ^ D.e) ^^^ D.mod8.getD (((R <<< 8) >>> D.e) ^^^ d.toNat) 0

/-- `remainder(MSG)` (R119): the whole bytes by `step8`, the last k mod 8 bits by `step1`. Padding bits are not read. -/
def Divider.remainder (D : Divider) (k : Nat) (msg : Memory) : Nat :=
  (List.range' (8 * (k / 8)) (k % 8)).foldl (fun R j => D.step1 R (msg.bit j))
    ((List.range (k / 8)).foldl (fun R b => D.step8 R (msg.read b)) 0)

/-- Byte `i` of the `w`-bit value `R` in buffer bit order: buffer bit j is `bit(R, w - 1 - j)`, padding bits 0 (R50,
R120). -/
def packByte (w R i : Nat) : Byte :=
  let bit := fun b => decide (8 * i + b < w) && R.testBit (w - 1 - (8 * i + b))
  BitVec.ofBoolListBE [bit 0, bit 1, bit 2, bit 3, bit 4, bit 5, bit 6, bit 7]

/-- `pack(R)` (R120): the ceil(w / 8) bytes of a `w`-bit value. -/
def pack (w R : Nat) : List Byte := (List.range ((w + 7) / 8)).map (packByte w R)

/-- `unpack(buf)` (R120): the first `w` bits of a buffer, the first one the highest. Padding bits are not read. -/
def unpack (w : Nat) (buf : Memory) : Nat :=
  (List.range w).foldl (fun R j => (R <<< 1) ||| (buf.bit j).toNat) 0

end Sys2Proof.Machine
end

