-- ==== Sys2Proof/Machine/Flags.lean ====
section
/-! DEFINITION. The one flag of BCHCORE, `FLAGS.SYNZ` (rule R20). There are no condition codes: no arithmetic command
writes a flag (rules R20, R103). -/

namespace Sys2Proof.Machine

/-- `FLAGS` as read: bit 0 `SYNZ`, bits 15:1 hard-wired to 0 (R20, R25). -/
def State.flags (s : State) : Half := if s.synz then 1 else 0

/-- `SYNZ` as `SYND` computes it: all 2t syndromes are zero (R20, R129). -/
def allZero (syn : List Half) : Bool := syn.all fun v => v == 0

end Sys2Proof.Machine
end

