-- ==== Sys2Proof/Machine/Operands.lean ====
section
/-! DEFINITION. What an operand field names: a control register (rule R25), an element of an address space (rules R45,
R110), and the checks on them. Registers fields name a GF register directly (rule R73, `State.readG`). -/

namespace Sys2Proof.Machine

/-! ## Control registers -/

/-- The control-register map (R25); the other numbers are reserved. -/
def csrNumber (csr : BitVec 8) : Option Csr :=
  match csr.toNat with
  | 0x00 => some .m
  | 0x01 => some .poly
  | 0x02 => some .t
  | 0x03 => some .k
  | 0x04 => some .cfgstate
  | 0x05 => some .n
  | 0x06 => some .ebits
  | 0x07 => some .ebytes
  | 0x08 => some .kbytes
  | 0x09 => some .stage
  | 0x0A => some .flags
  | 0x0B => some .nerr
  | 0x0C => some .elpdeg
  | 0x0D => some .lasterr
  | 0x0E => some .prim
  | _ => none

/-- The value a control register reads as, zero-extended from its width (R25, R85). -/
def State.readCsr (s : State) (csr : Csr) : Half :=
  match csr with
  | .m => s.m
  | .poly => s.poly
  | .t => s.t
  | .k => s.k
  | .cfgstate => s.cfgstate.value.setWidth 16
  | .n => s.n
  | .ebits => s.ebits
  | .ebytes => s.ebytes
  | .kbytes => s.kbytes
  | .stage => s.stage.value.setWidth 16
  | .flags => s.flags
  | .nerr => s.nerr
  | .elpdeg => s.elpdeg
  | .lasterr => s.lasterr.setWidth 16
  | .prim => s.prim

/-! ## Address spaces -/

/-- The address-space map (R45); 9 to 15 are reserved. -/
def spaceNumber (space : BitVec 4) : Option Space :=
  match space.toNat with
  | 0 => some .msg
  | 1 => some .ecc
  | 2 => some .eccs
  | 3 => some .syn
  | 4 => some .elp
  | 5 => some .loc
  | 6 => some .log
  | 7 => some .antilog
  | 8 => some .gen
  | _ => none

/-- `len(space)`: how many elements a space has in this configuration (R45, R110). -/
def State.spaceLen (s : State) (sp : Space) : Nat :=
  match sp with
  | .msg => s.kbytes.toNat
  | .ecc => s.ebytes.toNat
  | .eccs => s.ebytes.toNat
  | .syn => 2 * s.t.toNat
  | .elp => 2 * s.t.toNat + 1
  | .loc => s.nerr.toNat
  | .log => s.n.toNat + 1
  | .antilog => s.n.toNat + 1
  | .gen => (s.ebits.toNat + 1 + 7) / 8

/-- Whether a space is usable in the current `CFGSTATE` (R45, R112): the tables once a field is built, the rest once a
code is derived. -/
def State.spaceUsable (s : State) (sp : Space) : Bool :=
  match sp with
  | .log => s.cfgstate != .empty
  | .antilog => s.cfgstate != .empty
  | .msg => s.cfgstate == .code
  | .ecc => s.cfgstate == .code
  | .eccs => s.cfgstate == .code
  | .syn => s.cfgstate == .code
  | .elp => s.cfgstate == .code
  | .loc => s.cfgstate == .code
  | .gen => s.cfgstate == .code

/-- `MemRead(space, idx)`, zero-extended to 16 bits (R45, R51, R55); space 8 presents `GEN` packed (R50). -/
def State.readSpace (s : State) (sp : Space) (idx : Nat) : Half :=
  match sp with
  | .msg => (s.msg.read idx).setWidth 16
  | .ecc => (s.ecc.read idx).setWidth 16
  | .eccs => (s.eccs.read idx).setWidth 16
  | .syn => s.syn.getD idx 0
  | .elp => s.elp.getD idx 0
  | .loc => s.loc.getD idx 0
  | .log => s.log.getD idx 0
  | .antilog => s.antilog.getD idx 0
  | .gen => (packByte (s.ebits.toNat + 1) s.gen idx).setWidth 16

end Sys2Proof.Machine
end

