-- ==== Sys2Proof/Machine/Buffer.lean ====
section
/-! DEFINITION. The buffer commands STB and LD (rules R110 to R112). -/

namespace Sys2Proof.Machine

/-- `MemWrite(space, idx, v)` for the two host-writable spaces (R45, R111); no other space is ever written through it. -/
def State.writeSpace (s : State) (sp : Space) (idx : Nat) (v : Byte) : State :=
  match sp with
  | .msg => { s with msg := s.msg.write idx v }
  | .ecc => { s with ecc := s.ecc.write idx v }
  | _ => s

/-- Steps 1 to 4 of `STB` after its space is known (R111): `BadSequence`, then `InvalidInputLength`, then the store,
which sets `STAGE` to IDLE (R56, R170). -/
def stbSpace (sp : Space) (idx12 : BitVec 12) (data8 : Byte) (s : State) : Result :=
  if s.cfgstate ≠ .code then .err .badSequence s
  else if s.spaceLen sp ≤ idx12.toNat then .err .invalidInputLength s
  else .ok 0 ((s.writeSpace sp idx12.toNat data8).setStage .idle)

/-- Steps 1 to 4 of `STB` (R111): only `MSG` and `ECC` are host-writable. -/
def stbBody (space : BitVec 4) (idx12 : BitVec 12) (data8 : Byte) (s : State) : Result :=
  match spaceNumber space with
  | some .msg => stbSpace .msg idx12 data8 s
  | some .ecc => stbSpace .ecc idx12 data8 s
  | _ => .err .illegalCommand s

/-- `STB space, idx, data8` (R111). -/
def execStb (space : BitVec 4) (idx12 : BitVec 12) (data8 : Byte) (s : State) : Host.Outcome State Fault Refusal :=
  (stbBody space idx12 data8 s).finish

/-- Steps 1 to 4 of `LD` (R112): the checks in the rule's order, then the element. -/
def ldBody (space : BitVec 4) (idx16 : Half) (s : State) : Result :=
  match spaceNumber space with
  | none => .err .illegalCommand s
  | some sp =>
    if !s.spaceUsable sp then .err .badSequence s
    else if s.spaceLen sp ≤ idx16.toNat then .err .invalidInputLength s
    else .ok (s.readSpace sp idx16.toNat) s

/-- `LD space, idx` (R112). -/
def execLd (space : BitVec 4) (idx16 : Half) (s : State) : Host.Outcome State Fault Refusal :=
  (ldBody space idx16 s).finish

end Sys2Proof.Machine
end

