-- ==== Sys2Proof/Machine/Field.lean ====
section
/-! DEFINITION. The Galois field: building the tables (rule R86) and the field functions that every other unit uses
(rules R94 to R97). -/

namespace Sys2Proof.Machine

/-! ## Building the tables -/

/-- Multiplication by the field generator α in GF(2)[x]/(P): shift, then reduce modulo P if bit m is set (the last two
lines of the loop of R86). -/
def timesAlpha (m P x : Nat) : Nat :=
  if (x <<< 1).testBit m then (x <<< 1) ^^^ P else x <<< 1

/-- The loop of `buildfield` (R86), `steps` more iterations from index `i` with current element `x`: none when α^i = 1
for some 0 < i < n. Answers the element after the last iteration and the two tables. -/
def buildLoop (m P steps i x : Nat) (antilog log : Array Half) : Option (Nat × Array Half × Array Half) :=
  match steps with
  | 0 => some (x, antilog, log)
  | steps + 1 =>
    if 0 < i ∧ x = 1 then none
    else
      buildLoop m P steps (i + 1) (timesAlpha m P x)
        (antilog.setIfInBounds i (BitVec.ofNat 16 x)) (log.setIfInBounds x (BitVec.ofNat 16 i))

/-- `buildfield(m, P)` (R86): the pair (ANTILOG, LOG), each of 2^m entries, or none when P is not primitive. -/
def buildField (m P : Nat) : Option (Array Half × Array Half) :=
  match buildLoop m P (2 ^ m - 1) 0 1 (Array.replicate (2 ^ m) 0) (Array.replicate (2 ^ m) 0) with
  | none => none
  | some (x, antilog, log) =>
    if x ≠ 1 then none
    else some (antilog.setIfInBounds (2 ^ m - 1) 1,
      log.setIfInBounds 0 (BitVec.ofNat 16 (Config.logZero (2 ^ m - 1))))

/-! ## The field functions -/

/-- What the field functions read: n and the two tables. -/
structure GfTables where
  n : Nat
  log : Array Half
  antilog : Array Half
  deriving DecidableEq, Repr

/-- The tables in use. -/
def State.tables (s : State) : GfTables := { n := s.n.toNat, log := s.log, antilog := s.antilog }

/-- `LOG[v]`; an index outside the table, which no reachable state gives (R99), reads 0. -/
def GfTables.logAt (F : GfTables) (v : Nat) : Half := F.log.getD v 0

/-- `ANTILOG[e]`; an index outside the table, which no reachable state gives (R99), reads 0. -/
def GfTables.antilogAt (F : GfTables) (e : Nat) : Half := F.antilog.getD e 0

/-- `gf_add(a, b)` (R94). -/
def gfAdd (a b : Half) : Half := a ^^^ b

/-- `a_pow(e)`: α^e (R95). -/
def GfTables.pow (F : GfTables) (e : Nat) : Half := F.antilogAt (e % F.n)

/-- `gf_mul(a, b)` (R96): the zero test comes first. -/
def GfTables.mul (F : GfTables) (a b : Half) : Half :=
  if a = 0 ∨ b = 0 then 0
  else F.antilogAt (((F.logAt a.toNat).toNat + (F.logAt b.toNat).toNat) % F.n)

/-- `gf_div(a, b)` for b not 0 (R97); both callers exclude b = 0 (R105, R131 (a)). -/
def GfTables.div (F : GfTables) (a b : Half) : Half :=
  if a = 0 then 0
  else F.antilogAt (((F.logAt a.toNat).toNat + F.n - (F.logAt b.toNat).toNat) % F.n)

end Sys2Proof.Machine
end

