-- ==== Sys2Proof/Machine/Decoder.lean ====
section
/-! DEFINITION. The decoder: SYND, BMSOLVE, CHIEN, CORRECT and DECODE (rules R124 to R138). Each stage's body stands
alone, so that DECODE runs the same bodies (rule R138). -/

namespace Sys2Proof.Machine

/-- The preconditions of a decoder command, in order: `CFGSTATE` = CODE, and the `STAGE` it requires, if it requires
one (R124, R151); then its `body`. -/
def State.inCode (s : State) (required : Option Stage) (body : Result) : Result :=
  if s.cfgstate ≠ .code then .err .badSequence s
  else
    match required with
    | none => body
    | some st => if s.stage ≠ st then .err .badSequence s else body

/-! ## Stage 1: syndromes -/

/-- The value of the polynomial `rem`, of degree below `e`, at α^i (the inner loop of R127). -/
def syndromeAt (F : GfTables) (e rem i : Nat) : Half :=
  (List.range e).foldl (fun v p => if rem.testBit p then v ^^^ F.pow (i * p) else v) 0

/-- S_1 .. S_2t from the remainder (R127). -/
def syndromes (F : GfTables) (e t rem : Nat) : List Half :=
  (List.range (2 * t)).map fun i => syndromeAt F e rem (i + 1)

/-- `REM`: the received word modulo g (R127). -/
def State.receivedRem (s : State) : Nat :=
  s.divider.remainder s.k.toNat s.msg ^^^ unpack s.ebits.toNat s.ecc

/-- The body of `SYND` (R129), after its precondition. -/
def syndBody (s : State) : State :=
  { s with
    eccs := s.eccs.writeBytes 0 (pack s.ebits.toNat (unpack s.ebits.toNat s.ecc))
    rem := s.receivedRem
    syn := syndromes s.tables s.ebits.toNat s.t.toNat s.receivedRem
    synz := allZero (syndromes s.tables s.ebits.toNat s.t.toNat s.receivedRem)
    elp := 1 :: List.replicate (2 * s.t.toNat) 0
    elpdeg := 0
    nerr := 0
    stage := .synd }

/-- `SYND` (R129): any `STAGE`; the response data is `FLAGS.SYNZ`. -/
def execSynd (s : State) : Host.Outcome State Fault Refusal :=
  (s.inCode none (.ok (syndBody s).flags (syndBody s))).finish

/-! ## Stage 2: Berlekamp-Massey -/

/-- The variables of `bm` (R130): the current locator C with its degree counter L, the current discrepancy d, and the
scratch `BMS`. -/
structure BmVars where
  c : List Half
  l : Nat
  d : Half
  scratch : BmScratch
  deriving DecidableEq, Repr

/-- The initial values of R130, arrays of 2t + 1 entries. DESIGN CHOICE (log entry 14): R37 and R130 give the copy buffer
`TC` no initial value; it starts as 2t + 1 zeros. `TC` is written before it is read, so nothing computed depends on it. -/
def bmInit (syn : List Half) (t : Nat) : BmVars :=
  { c := 1 :: List.replicate (2 * t) 0
    l := 0
    d := syn.getD 0 0
    scratch :=
      { b := 1 :: List.replicate (2 * t) 0, lb := 0, pd := 1, pp := -1, tc := List.replicate (2 * t + 1) 0 } }

/-- `C[j + kk] <- C[j + kk] xor gf_mul(q, B[j])` for j = 0 .. LB (R130). -/
def bmAddShifted (F : GfTables) (c b : List Half) (lb kk : Nat) (q : Half) : List Half :=
  c.mapIdx fun x v => if kk ≤ x ∧ x ≤ lb + kk then v ^^^ F.mul q (b.getD (x - kk) 0) else v

/-- The branch of R130 for a discrepancy d that is not 0, in iteration i. The tie-break is strict. -/
def bmUpdate (F : GfTables) (i : Nat) (st : BmVars) : BmVars :=
  let kk := (2 * (i : Int) - st.scratch.pp).toNat
  let c' := bmAddShifted F st.c st.scratch.b st.scratch.lb kk (F.div st.d st.scratch.pd)
  if st.scratch.lb + kk > st.l then
    { c := c'
      l := st.scratch.lb + kk
      d := st.d
      scratch := { b := st.c, lb := st.l, pd := st.d, pp := 2 * (i : Int), tc := st.c } }
  else { st with c := c', scratch := { st.scratch with tc := st.c } }

/-- The discrepancy for S_(2i+3) (R130). -/
def bmDiscrepancy (F : GfTables) (syn : List Half) (i : Nat) (st : BmVars) : Half :=
  (List.range' 1 st.l).foldl (fun d j => d ^^^ F.mul (st.c.getD j 0) (syn.getD (2 * i + 2 - j) 0))
    (syn.getD (2 * i + 2) 0)

/-- One iteration of the loop of R130. -/
def bmIter (F : GfTables) (syn : List Half) (t i : Nat) (st : BmVars) : BmVars :=
  let st' := if st.d ≠ 0 then bmUpdate F i st else st
  if i < t - 1 then { st' with d := bmDiscrepancy F syn i st' } else st'

/-- `bm(S, t)` (R130): iterations i = 0 .. t - 1, none once L exceeds t. -/
def bm (F : GfTables) (syn : List Half) (t : Nat) : BmVars :=
  (List.range t).foldl (fun st i => if st.l ≤ t then bmIter F syn t i st else st) (bmInit syn t)

/-- What the solver leaves: the polynomial, its degree counter L, and the scratch (R132). -/
def State.storeLocator (s : State) (r : BmVars) : State :=
  { s with elp := r.c, elpdeg := BitVec.ofNat 16 r.l, bms := r.scratch }

/-- The solver on the syndromes of the state (R132). -/
def State.solve (s : State) : BmVars := bm s.tables s.syn s.t.toNat

/-- The body of `BMSOLVE` (R132), after its preconditions: on failure the polynomial and L stay as diagnostics. -/
def bmsolveBody (s : State) : Result :=
  if s.solve.l > s.t.toNat then .err .uncorrectableError ((s.storeLocator s.solve).setStage .failed)
  else .ok (BitVec.ofNat 16 s.solve.l) ((s.storeLocator s.solve).setStage .locator)

/-- `BMSOLVE` (R132). -/
def execBmsolve (s : State) : Host.Outcome State Fault Refusal :=
  (s.inCode (some .synd) (bmsolveBody s)).finish

/-! ## Stage 3: Chien search -/

/-- C(α^i), over the coefficients 0 .. L (R133). -/
def locatorAt (F : GfTables) (c : List Half) (l i : Nat) : Half :=
  (List.range (l + 1)).foldl (fun v j => v ^^^ F.mul (c.getD j 0) (F.pow (i * j))) 0

/-- The positions n - i of the roots α^i, i = 1 .. n in scan order (R133). -/
def chienRoots (F : GfTables) (c : List Half) (l : Nat) : List Nat :=
  ((List.range' 1 F.n).filter fun i => locatorAt F c l i == 0).map fun i => F.n - i

/-- `LOC[0..t-1]` for the positions found: the first t of them, the rest 0 (R133). -/
def locEntries (t : Nat) (ps : List Nat) : List Half :=
  (ps.take t).map (BitVec.ofNat 16) ++ List.replicate (t - ps.length) 0

/-- What the search leaves: the positions found and their number (R134). -/
def State.storeRoots (s : State) (ps : List Nat) : State :=
  { s with loc := locEntries s.t.toNat ps, nerr := BitVec.ofNat 16 ps.length }

/-- The search on the locator of the state (R134). -/
def State.search (s : State) : List Nat := chienRoots s.tables s.elp s.elpdeg.toNat

/-- The body of `CHIEN` (R134, R135), after its preconditions: the root count must equal `ELPDEG`. -/
def chienBody (s : State) : Result :=
  if s.search.length ≠ s.elpdeg.toNat then .err .uncorrectableError ((s.storeRoots s.search).setStage .failed)
  else .ok (BitVec.ofNat 16 s.search.length) ((s.storeRoots s.search).setStage .roots)

/-- `CHIEN` (R134). -/
def execChien (s : State) : Host.Outcome State Fault Refusal :=
  (s.inCode (some .locator) (chienBody s)).finish

/-! ## Stage 4: correction -/

/-- What happens for one position p of `LOC` (R136): ignored in the padded region, a message bit flipped, or a bit of
the scratch copy of the ECC flipped. Works on the pair (`MSG`, `ECCS`). -/
def correctOne (k e : Nat) (bufs : Memory × Memory) (p : Nat) : Memory × Memory :=
  if k + e ≤ p then bufs
  else if e ≤ p then (bufs.1.flipBit (k + e - 1 - p), bufs.2)
  else (bufs.1, bufs.2.flipBit (e - 1 - p))

/-- The corrected pair (`MSG`, `ECCS`): the loop of R137 over `LOC[0..NERR-1]`. -/
def State.corrected (s : State) : Memory × Memory :=
  (List.range s.nerr.toNat).foldl
    (fun bufs idx => correctOne s.k.toNat s.ebits.toNat bufs (s.loc.getD idx 0).toNat) (s.msg, s.eccs)

/-- The body of `CORRECT` (R137), after its preconditions. -/
def correctBody (s : State) : State :=
  { s with msg := s.corrected.1, eccs := s.corrected.2, stage := .done }

/-- `CORRECT` (R137): the response data is `NERR`. -/
def execCorrect (s : State) : Host.Outcome State Fault Refusal :=
  (s.inCode (some .roots) (.ok s.nerr (correctBody s))).finish

/-! ## The whole pipeline -/

/-- The body of `DECODE` (R138), after its precondition: the bodies of the four stages, with the early exit when all
syndromes are zero; the first stage that raises ends the command. -/
def decodeBody (s : State) : Result :=
  if (syndBody s).synz then .ok 0 ((syndBody s).setStage .done)
  else
    match bmsolveBody (syndBody s) with
    | .err e s2 => .err e s2
    | .ok _ s2 =>
      match chienBody s2 with
      | .err e s3 => .err e s3
      | .ok _ s3 => .ok s3.nerr (correctBody s3)

/-- `DECODE` (R138): any `STAGE`. -/
def execDecode (s : State) : Host.Outcome State Fault Refusal :=
  (s.inCode none (decodeBody s)).finish

end Sys2Proof.Machine
end

