-- ==== Sys2Proof/Machine/Encoder.lean ====
section
/-! DEFINITION. The systematic encoder ENCODE (rules R114, R121). -/

namespace Sys2Proof.Machine

/-- All EB bytes of `ECC` replaced by the packed value of R (R120, R121). -/
def State.storeEcc (s : State) (R : Nat) : State := { s with ecc := s.ecc.writeBytes 0 (pack s.ebits.toNat R) }

/-- Steps 2 to 4 of `ENCODE` (R121): the remainder of the message into `ECC`; `STAGE` to IDLE. -/
def encodeBody (s : State) : Result :=
  if s.cfgstate ≠ .code then .err .badSequence s
  else .ok 0 ((s.storeEcc (s.divider.remainder s.k.toNat s.msg)).setStage .idle)

/-- `ENCODE` (R121). -/
def execEncode (s : State) : Host.Outcome State Fault Refusal := (encodeBody s).finish

end Sys2Proof.Machine
end

