-- ==== Sys2Proof/Machine/GfArith.lean ====
section
/-! DEFINITION. The field-arithmetic commands GFLI, GFRD, GFADD, GFMUL, GFDIV, GFLOG, GFALOG (rules R99 to R107). -/

namespace Sys2Proof.Machine

/-- Checks (2) and (3) of R100, in order: no field is built; a source value is greater than n. -/
def State.gfCheck (s : State) (sources : List Half) : Option Err :=
  if s.cfgstate = .empty then some .badSequence
  else if sources.any (fun v => decide (s.n.toNat < v.toNat)) then some .operandRange
  else none

/-- The shape of the commands that write `G[rd]` with a value computed from their sources and return it: the sources
are read before the destination is written (R26). -/
def State.gfWrite (s : State) (rd : GReg) (sources : List Half) (value : Half) : Result :=
  match s.gfCheck sources with
  | some e => .err e s
  | none => .ok value (s.setG rd value)

/-- Steps 2 to 4 of `GFLI` (R101): the immediate is the checked source; the response data is 0. -/
def gfliBody (rd : GReg) (imm16 : Half) (s : State) : Result :=
  match s.gfCheck [imm16] with
  | some e => .err e s
  | none => .ok 0 (s.setG rd imm16)

/-- `GFLI Gd, imm16` (R101). -/
def execGfli (rd : GReg) (imm16 : Half) (s : State) : Host.Outcome State Fault Refusal := (gfliBody rd imm16 s).finish

/-- Steps 2 to 4 of `GFRD` (R102, with the checks common to the seven commands, R100; log entry 7). -/
def gfrdBody (rs1 : GReg) (s : State) : Result :=
  match s.gfCheck [s.readG rs1] with
  | some e => .err e s
  | none => .ok (s.readG rs1) s

/-- `GFRD Gs` (R102). -/
def execGfrd (rs1 : GReg) (s : State) : Host.Outcome State Fault Refusal := (gfrdBody rs1 s).finish

/-- `GFADD Gd, Ga, Gb` (R103). -/
def execGfadd (rd rs1 rs2 : GReg) (s : State) : Host.Outcome State Fault Refusal :=
  (s.gfWrite rd [s.readG rs1, s.readG rs2] (gfAdd (s.readG rs1) (s.readG rs2))).finish

/-- `GFMUL Gd, Ga, Gb` (R104). -/
def execGfmul (rd rs1 rs2 : GReg) (s : State) : Host.Outcome State Fault Refusal :=
  (s.gfWrite rd [s.readG rs1, s.readG rs2] (s.tables.mul (s.readG rs1) (s.readG rs2))).finish

/-- Steps 2 to 4 of `GFDIV` (R105): a zero divisor, whatever the dividend, raises `GfDivideByZero` after the other
checks (R100 (4), R152). -/
def gfdivBody (rd rs1 rs2 : GReg) (s : State) : Result :=
  match s.gfCheck [s.readG rs1, s.readG rs2] with
  | some e => .err e s
  | none =>
    if s.readG rs2 = 0 then .err .gfDivideByZero s
    else .ok (s.tables.div (s.readG rs1) (s.readG rs2)) (s.setG rd (s.tables.div (s.readG rs1) (s.readG rs2)))

/-- `GFDIV Gd, Ga, Gb` (R105). -/
def execGfdiv (rd rs1 rs2 : GReg) (s : State) : Host.Outcome State Fault Refusal := (gfdivBody rd rs1 rs2 s).finish

/-- `GFLOG Gd, Ga` (R106): the logarithm of 0 is the sentinel, no error. -/
def execGflog (rd rs1 : GReg) (s : State) : Host.Outcome State Fault Refusal :=
  (s.gfWrite rd [s.readG rs1] (s.tables.logAt (s.readG rs1).toNat)).finish

/-- `GFALOG Gd, Ga` (R107): index 0 .. n, no reduction. -/
def execGfalog (rd rs1 : GReg) (s : State) : Host.Outcome State Fault Refusal :=
  (s.gfWrite rd [s.readG rs1] (s.tables.antilogAt (s.readG rs1).toNat)).finish

end Sys2Proof.Machine
end

