-- ==== Sys2Proof/Machine/Poly.lean ====
section
/-! DEFINITION. Polynomials over GF(2) as integers (rule R11), the generator polynomial (rule R89) and the per-byte
reduction table (rules R30, R116). -/

namespace Sys2Proof.Machine

/-- The loop of `pmod` (R11), at most `fuel` subtractions. Each subtraction lowers the degree of `a`. -/
def pmodLoop (fuel a g : Nat) : Nat :=
  match fuel with
  | 0 => a
  | fuel + 1 => if a ≠ 0 ∧ g.log2 ≤ a.log2 then pmodLoop fuel (a ^^^ (g <<< (a.log2 - g.log2))) g else a

/-- `pmod(a, g)`, for g not 0: the remainder of a(x) divided by g(x) (R11). `Nat.log2` is the degree. -/
def pmod (a g : Nat) : Nat := pmodLoop (a.log2 + 1) a g

/-- `clmul(a, b)`: the xor over all set bits j of b of `a << j` (R89). -/
def clmul (a b : Nat) : Nat :=
  (List.range (b.log2 + 1)).foldl (fun acc j => if b.testBit j then acc ^^^ (a <<< j) else acc) 0

/-- The repeat loop of R89 that collects the coset of `i` modulo `n`: `c` and its doubles until `i` comes back, at most
`fuel` elements. -/
def cosetLoop (fuel n i c : Nat) : List Nat :=
  match fuel with
  | 0 => []
  | fuel + 1 => if (2 * c) % n = i then [c] else c :: cosetLoop fuel n i ((2 * c) % n)

/-- The cyclotomic coset of `i` modulo `n = 2^m - 1` (R89); it has at most m elements. -/
def coset (m n i : Nat) : List Nat := cosetLoop m n i i

/-- One factor of a minimal polynomial: `mp · (x + r)` over GF(2^m), coefficients lowest first (R89). -/
def mulLinear (F : GfTables) (mp : List Half) (r : Half) : List Half :=
  List.zipWith (fun a b => a ^^^ b) (0 :: mp) (mp.map (fun c => F.mul c r) ++ [0])

/-- The minimal polynomial over GF(2) of α^i, coefficients lowest first: the product of (x + α^c) over the coset (R89). -/
def minPoly (F : GfTables) (cs : List Nat) : List Half :=
  cs.foldl (fun mp c => mulLinear F mp (F.pow c)) [1]

/-- A coefficient list, every coefficient 0 or 1, read as a GF(2) polynomial (R89). -/
def gf2Poly (mp : List Half) : Nat :=
  mp.foldr (fun c acc => 2 * acc + (if c = 0 then 0 else 1)) 0

/-- `genpoly(t)` (R89): the product of the distinct minimal polynomials of the 2t consecutive roots from α^`ROOT0`. -/
def genPoly (F : GfTables) (m t : Nat) : Nat :=
  ((List.range' Config.root0 (2 * t)).foldl
    (fun (acc : Nat × List Nat) i =>
      if acc.2.contains i then acc
      else
        let cs := coset m F.n i
        (clmul acc.1 (gf2Poly (minPoly F cs)), acc.2 ++ cs))
    (1, [])).1

/-- `MOD8` (R30, R116): entry b is `pmod(b << E, g)`. -/
def mod8Table (g E : Nat) : Array Nat := ((List.range 256).map fun b => pmod (b <<< E) g).toArray

end Sys2Proof.Machine
end

