-- ==== Sys2Proof/Machine/System.lean ====
section
/-! DEFINITION. The system and configuration commands NOP, CLEAR, WRCSR, RDCSR, GFBUILD, DERIVE (rules R82 to R91). -/

namespace Sys2Proof.Machine

/-- `NOP` (R82). -/
def execNop (s : State) : Host.Outcome State Fault Refusal := (Result.ok 0 s).finish

/-- `CLEAR` (R83): every piece of state to its reset value. -/
def execClear (s : State) : Host.Outcome State Fault Refusal := (Result.ok 0 s.clear).finish

/-- Steps 1 to 4 of `WRCSR` (R84, R23): only `M`, `POLY`, `T` and `K` can be written, each only before the command
that consumes it. -/
def wrcsrBody (csr : BitVec 8) (imm16 : Half) (s : State) : Result :=
  match csrNumber csr with
  | some .m => if s.cfgstate ≠ .empty then .err .badSequence s else .ok 0 { s with m := imm16 }
  | some .poly => if s.cfgstate ≠ .empty then .err .badSequence s else .ok 0 { s with poly := imm16 }
  | some .t => if s.cfgstate = .code then .err .badSequence s else .ok 0 { s with t := imm16 }
  | some .k => if s.cfgstate = .code then .err .badSequence s else .ok 0 { s with k := imm16 }
  | _ => .err .illegalCommand s

/-- `WRCSR csr, imm16` (R84). -/
def execWrcsr (csr : BitVec 8) (imm16 : Half) (s : State) : Host.Outcome State Fault Refusal :=
  (wrcsrBody csr imm16 s).finish

/-- Steps 1 to 4 of `RDCSR` (R85): any defined register, in any state. -/
def rdcsrBody (csr : BitVec 8) (s : State) : Result :=
  match csrNumber csr with
  | some r => .ok (s.readCsr r) s
  | none => .err .illegalCommand s

/-- `RDCSR csr` (R85): the read comes before `LASTERR` is rewritten (R22). -/
def execRdcsr (csr : BitVec 8) (s : State) : Host.Outcome State Fault Refusal := (rdcsrBody csr s).finish

/-- The polynomial `GFBUILD` uses: `POLY`, or the default of the order when `POLY` is 0 (R87, R88). -/
def State.polyInUse (s : State) : Nat :=
  if s.poly = 0 then Config.defPoly s.m.toNat else s.poly.toNat

/-- The commit of `GFBUILD`, all at once (R88). -/
def State.commitField (s : State) (P : Nat) (antilog log : Array Half) : State :=
  { s with
    antilog := antilog
    log := log
    n := BitVec.ofNat 16 (2 ^ s.m.toNat - 1)
    prim := BitVec.ofNat 16 P
    g := Vector.replicate 16 0
    cfgstate := .field }

/-- Steps 2 to 4 of `GFBUILD` (R88). -/
def gfbuildBody (s : State) : Result :=
  if s.cfgstate ≠ .empty then .err .badSequence s
  else if s.m.toNat < Config.mMin ∨ Config.mMax < s.m.toNat then .err .invalidFieldOrder s
  else if s.polyInUse >>> s.m.toNat ≠ 1 then .err .invalidFieldOrder s
  else
    match buildField s.m.toNat s.polyInUse with
    | none => .err .invalidFieldOrder s
    | some (antilog, log) =>
      .ok (BitVec.ofNat 16 (2 ^ s.m.toNat - 1)) (s.commitField s.polyInUse antilog log)

/-- `GFBUILD` (R88). -/
def execGfbuild (s : State) : Host.Outcome State Fault Refusal := (gfbuildBody s).finish

/-- The commit of `DERIVE`, all at once (R91): the code tables, the derived registers, the buffers zero, the decoder
scratch at its initial values. -/
def State.commitCode (s : State) (g : Nat) : State :=
  { s with
    gen := g
    mod8 := mod8Table g g.log2
    ebits := BitVec.ofNat 16 g.log2
    ebytes := BitVec.ofNat 16 ((g.log2 + 7) / 8)
    kbytes := BitVec.ofNat 16 ((s.k.toNat + 7) / 8)
    msg := []
    ecc := []
    eccs := []
    syn := List.replicate (2 * s.t.toNat) 0
    elp := 1 :: List.replicate (2 * s.t.toNat) 0
    loc := List.replicate s.t.toNat 0
    elpdeg := 0
    nerr := 0
    synz := false
    stage := .idle
    cfgstate := .code }

/-- Steps 2 to 4 of `DERIVE` (R90, R91): E = deg g is computed only after the tests on t. -/
def deriveBody (s : State) : Result :=
  if s.cfgstate ≠ .field then .err .badSequence s
  else if s.t.toNat < 1 ∨ s.n.toNat ≤ s.m.toNat * s.t.toNat then .err .capacityExceeded s
  else
    let g := genPoly s.tables s.m.toNat s.t.toNat
    if s.k.toNat < 1 ∨ s.n.toNat < s.k.toNat + g.log2 then .err .capacityExceeded s
    else .ok (BitVec.ofNat 16 g.log2) (s.commitCode g)

/-- `DERIVE` (R91). -/
def execDerive (s : State) : Host.Outcome State Fault Refusal := (deriveBody s).finish

end Sys2Proof.Machine
end

