-- ==== Sys2Proof/Machine/Dispatch.lean ====
section
/-! DEFINITION. The dispatch: one arm per command of the opcode map (rule R74), each one call of its meaning. -/

namespace Sys2Proof.Machine

def exec (i : Instr) (s : State) : Host.Outcome State Fault Refusal :=
  match i with
  | .nop => Sys2Proof.Machine.execNop s
  | .clear => Sys2Proof.Machine.execClear s
  | .wrcsr csr imm16 => Sys2Proof.Machine.execWrcsr csr imm16 s
  | .rdcsr csr => Sys2Proof.Machine.execRdcsr csr s
  | .gfbuild => Sys2Proof.Machine.execGfbuild s
  | .derive => Sys2Proof.Machine.execDerive s
  | .gfli rd imm16 => Sys2Proof.Machine.execGfli rd imm16 s
  | .gfrd rs1 => Sys2Proof.Machine.execGfrd rs1 s
  | .gfadd rd rs1 rs2 => Sys2Proof.Machine.execGfadd rd rs1 rs2 s
  | .gfmul rd rs1 rs2 => Sys2Proof.Machine.execGfmul rd rs1 rs2 s
  | .gfdiv rd rs1 rs2 => Sys2Proof.Machine.execGfdiv rd rs1 rs2 s
  | .gflog rd rs1 => Sys2Proof.Machine.execGflog rd rs1 s
  | .gfalog rd rs1 => Sys2Proof.Machine.execGfalog rd rs1 s
  | .stb space idx12 data8 => Sys2Proof.Machine.execStb space idx12 data8 s
  | .ld space idx16 => Sys2Proof.Machine.execLd space idx16 s
  | .encode => Sys2Proof.Machine.execEncode s
  | .decode => Sys2Proof.Machine.execDecode s
  | .synd => Sys2Proof.Machine.execSynd s
  | .bmsolve => Sys2Proof.Machine.execBmsolve s
  | .chien => Sys2Proof.Machine.execChien s
  | .correct => Sys2Proof.Machine.execCorrect s

end Sys2Proof.Machine
end

