-- ==== Sys2Proof/Machine/Frame.lean ====
section
/-! DEFINITION. The execution frame of rule R81 for a whole command word, and what the block does with what arrives on
its port (rules R5, R58, R75, R164). -/

namespace Sys2Proof.Machine

/-- One command word (R81): a word that decodes runs; an illegal word raises `IllegalCommand` and changes nothing but
`RSP` and `LASTERR` (R75, R150). -/
def execWord (w : Word) (s : State) : Host.Outcome State Fault Refusal :=
  match decode w with
  | .ok i => exec i s
  | .error _ => (Result.err .illegalCommand s).finish

/-- What the block does with one port event: executes the command word, or takes the reset value everywhere (R164,
R165: `CLEAR` and hardware reset are equivalent). -/
def portEvent (ev : PortEvent) (s : State) : Host.Outcome State Fault Refusal :=
  match ev with
  | .command w => execWord w s
  | .reset => .next s.clear

/-- The words of an instruction's first `nbits` bits: one 32-bit word (R63), the bits at and above `nbits` 0. -/
def tableWord (nbits w : Nat) : Word := BitVec.ofNat 32 (w % 2 ^ nbits)

end Sys2Proof.Machine
end

