-- ==== Sys2Proof/Machine/Step.lean ====
section
/-! DEFINITION. One step of the machine: the oldest event on the port is taken off and carried out to completion
(rules R5, R58). BCHCORE has no program counter and no instruction memory (rule R19): the program is the host's sequence
of command words, and taking the next word off the port is what fetching is elsewhere. -/

namespace Sys2Proof.Machine

/-- One step. With nothing on the port the block waits and nothing changes (R165, R178). -/
def step (s : State) : Host.Outcome State Fault Refusal :=
  match s.port with
  | [] => .next s
  | ev :: rest => portEvent ev { s with port := rest }

/-- `s` with that command word put first on the port, so that the next step executes it (log entry 2). -/
def State.withFetchWord (s : State) (nbits w : Nat) : State :=
  { s with port := .command (tableWord nbits w) :: s.port }

end Sys2Proof.Machine
end

