-- ==== Sys2Proof/Safety.lean ====
section
/-! DEFINITION. The terms that claims are stated in: the opcode map as a table, the powers of α, the invariants of the
state, the list of sequence errors, and a run of several commands. -/

namespace Sys2Proof.Machine

/-! ## The opcode map (R74) -/

/-- A row of R74: a word w selects it when `(w and mask) = value`. -/
structure OpcodeRow where
  value : Word
  mask : Word
  deriving DecidableEq, Repr

/-- The row of each command in the opcode map (R74). -/
def opcodeRow (i : Instr) : OpcodeRow :=
  match i with
  | .nop => ⟨0x00000000, 0xFFFFFFFF⟩
  | .clear => ⟨0x01000000, 0xFFFFFFFF⟩
  | .wrcsr _ _ => ⟨0x02000000, 0xFF000000⟩
  | .rdcsr _ => ⟨0x03000000, 0xFF00FFFF⟩
  | .gfbuild => ⟨0x10000000, 0xFFFFFFFF⟩
  | .derive => ⟨0x11000000, 0xFFFFFFFF⟩
  | .gfli _ _ => ⟨0x20000000, 0xFF0F0000⟩
  | .gfrd _ => ⟨0x21000000, 0xFFF0FFFF⟩
  | .gfadd _ _ _ => ⟨0x22000000, 0xFF000FFF⟩
  | .gfmul _ _ _ => ⟨0x23000000, 0xFF000FFF⟩
  | .gfdiv _ _ _ => ⟨0x24000000, 0xFF000FFF⟩
  | .gflog _ _ => ⟨0x25000000, 0xFF00FFFF⟩
  | .gfalog _ _ => ⟨0x26000000, 0xFF00FFFF⟩
  | .stb _ _ _ => ⟨0x30000000, 0xFF000000⟩
  | .ld _ _ => ⟨0x31000000, 0xFF0F0000⟩
  | .encode => ⟨0x40000000, 0xFFFFFFFF⟩
  | .decode => ⟨0x41000000, 0xFFFFFFFF⟩
  | .synd => ⟨0x42000000, 0xFFFFFFFF⟩
  | .bmsolve => ⟨0x43000000, 0xFFFFFFFF⟩
  | .chien => ⟨0x44000000, 0xFFFFFFFF⟩
  | .correct => ⟨0x45000000, 0xFFFFFFFF⟩

/-- The whole opcode map, 21 rows (R74). -/
def opcodeMap : List OpcodeRow :=
  [.nop, .clear, .wrcsr 0 0, .rdcsr 0, .gfbuild, .derive, .gfli 0 0, .gfrd 0, .gfadd 0 0 0, .gfmul 0 0 0,
    .gfdiv 0 0 0, .gflog 0 0, .gfalog 0 0, .stb 0 0 0, .ld 0 0, .encode, .decode, .synd, .bmsolve, .chien,
    .correct].map opcodeRow

/-- A word selects a row (R74). -/
abbrev OpcodeRow.selects (row : OpcodeRow) (w : Word) : Prop := w &&& row.mask = row.value

/-- A word that raises `IllegalCommand` (R75, R76, R150): it selects no row, or it names an illegal register or space. -/
def illegalWord (w : Word) : Bool :=
  match decode w with
  | .ok i => !WellFormed i
  | .error _ => true

/-- The commands of format Z have no operand bits: with any of bits 23:0 set the word raises `IllegalCommand` and
changes nothing but `RSP` and `LASTERR` (R64, R75 (b)). -/
def LowBitsZero (opcode : BitVec 8) : Prop :=
  ∀ (x : BitVec 24) (s : State), x ≠ 0 → execWord (opcode ++ x) s = .next { s with rsp := response 5 0, lasterr := 5 }

/-! ## Sequence errors (R151) -/

/-- The complete list of R151: whether a legal command finds a CFGSTATE or STAGE in which its precondition does not
hold. -/
def outOfSequence (i : Instr) (s : State) : Bool :=
  match i with
  | .wrcsr csr _ => if csr.toNat ≤ 0x01 then s.cfgstate != .empty else s.cfgstate == .code
  | .gfbuild => s.cfgstate != .empty
  | .derive => s.cfgstate != .field
  | .gfli _ _ => s.cfgstate == .empty
  | .gfrd _ => s.cfgstate == .empty
  | .gfadd _ _ _ => s.cfgstate == .empty
  | .gfmul _ _ _ => s.cfgstate == .empty
  | .gfdiv _ _ _ => s.cfgstate == .empty
  | .gflog _ _ => s.cfgstate == .empty
  | .gfalog _ _ => s.cfgstate == .empty
  | .ld space _ => if space = 6 ∨ space = 7 then s.cfgstate == .empty else s.cfgstate != .code
  | .stb _ _ _ => s.cfgstate != .code
  | .encode => s.cfgstate != .code
  | .decode => s.cfgstate != .code
  | .synd => s.cfgstate != .code
  | .bmsolve => s.cfgstate != .code || s.stage != .synd
  | .chien => s.cfgstate != .code || s.stage != .locator
  | .correct => s.cfgstate != .code || s.stage != .roots
  | .nop => false
  | .clear => false
  | .rdcsr _ => false

/-! ## The stage machine (R124) -/

/-- The `STAGE` a command requires, if it requires one (R124, second column). -/
def stageRequired (i : Instr) : Option Stage :=
  match i with
  | .bmsolve => some .synd
  | .chien => some .locator
  | .correct => some .roots
  | .nop => none
  | .clear => none
  | .wrcsr _ _ => none
  | .rdcsr _ => none
  | .gfbuild => none
  | .derive => none
  | .gfli _ _ => none
  | .gfrd _ => none
  | .gfadd _ _ _ => none
  | .gfmul _ _ _ => none
  | .gfdiv _ _ _ => none
  | .gflog _ _ => none
  | .gfalog _ _ => none
  | .stb _ _ _ => none
  | .ld _ _ => none
  | .encode => none
  | .decode => none
  | .synd => none

/-- The `STAGE` a command leaves when it succeeds (R124, third column); a command the table does not name keeps it. -/
def stageAfter (i : Instr) (st : Stage) : Stage :=
  match i with
  | .synd => .synd
  | .bmsolve => .locator
  | .chien => .roots
  | .correct => .done
  | .decode => .done
  | .stb _ _ _ => .idle
  | .encode => .idle
  | .derive => .idle
  | .clear => .idle
  | .nop => st
  | .wrcsr _ _ => st
  | .rdcsr _ => st
  | .gfbuild => st
  | .gfli _ _ => st
  | .gfrd _ => st
  | .gfadd _ _ _ => st
  | .gfmul _ _ _ => st
  | .gfdiv _ _ _ => st
  | .gflog _ _ => st
  | .gfalog _ _ => st
  | .ld _ _ => st

/-! ## The field -/

/-- α^i in GF(2)[x]/(P) by iterated multiplication by α from 1 (R86). -/
def alphaPow (m P i : Nat) : Nat :=
  match i with
  | 0 => 1
  | i + 1 => timesAlpha m P (alphaPow m P i)

/-- P is primitive for order m, by the test of R86: α^i = 1 for no i with 0 < i < n, and α^n = 1. -/
structure Primitive (m P : Nat) : Prop where
  not_before : ∀ i, 0 < i → i < 2 ^ m - 1 → alphaPow m P i ≠ 1
  at_n : alphaPow m P (2 ^ m - 1) = 1

/-- The contents of the field tables for order m and polynomial P (R27, R28). -/
structure TablesOk (m P : Nat) (F : GfTables) : Prop where
  m_lo : 2 ≤ m
  m_hi : m ≤ 15
  degree : P >>> m = 1
  n_eq : F.n = 2 ^ m - 1
  antilog_size : F.antilog.size = 2 ^ m
  log_size : F.log.size = 2 ^ m
  /-- `ANTILOG[i] = α^i` (R27) -/
  antilog_eq : ∀ i, i < F.n → (F.antilogAt i).toNat = alphaPow m P i
  /-- `ANTILOG[n] = 1` (R27) -/
  antilog_top : F.antilogAt F.n = 1
  /-- `LOG[0] = n` (R27) -/
  log_zero : (F.logAt 0).toNat = F.n
  /-- `antilog[log[x]] == x` for all nonzero x (R28 (a)) -/
  antilog_log : ∀ x, 1 ≤ x → x ≤ F.n → (F.antilogAt (F.logAt x).toNat).toNat = x
  /-- `LOG[ANTILOG[e]] = e` (R28 (b)) -/
  log_antilog : ∀ e, e < F.n → (F.logAt (F.antilogAt e).toNat).toNat = e
  /-- `ANTILOG[e]` is nonzero for every index (R28 (c)) -/
  antilog_ne : ∀ e, e ≤ F.n → F.antilogAt e ≠ 0
  /-- `LOG[x] <= n - 1` for every nonzero x (R28 (d)) -/
  log_lt : ∀ x, 1 ≤ x → x ≤ F.n → (F.logAt x).toNat < F.n

/-- The elements of GF(2^m) are the values 0 .. n (R12). -/
abbrev GfTables.elem (F : GfTables) (a : Half) : Prop := a.toNat ≤ F.n

/-! ## The invariants of the state -/

/-- The field state while `CFGSTATE` is FIELD or CODE (R24, R28, R99). -/
structure FieldOk (s : State) : Prop where
  tables : TablesOk s.m.toNat s.prim.toNat s.tables
  /-- every `G[i]` is at most n (R99) -/
  regs : ∀ r, s.tables.elem (s.readG r)

/-- The code state while `CFGSTATE` is CODE (R7, R24, R29, R30, R35, R36, R39, R90). -/
structure CodeOk (s : State) : Prop where
  t_pos : 1 ≤ s.t.toNat
  mt_lt : s.m.toNat * s.t.toNat < s.n.toNat
  k_pos : 1 ≤ s.k.toNat
  gen_eq : s.gen = genPoly s.tables s.m.toNat s.t.toNat
  gen_ne : s.gen ≠ 0
  e_eq : s.ebits.toNat = s.gen.log2
  e_pos : 1 ≤ s.ebits.toNat
  fits : s.k.toNat + s.ebits.toNat ≤ s.n.toNat
  eb_eq : s.ebytes.toNat = (s.ebits.toNat + 7) / 8
  kb_eq : s.kbytes.toNat = (s.k.toNat + 7) / 8
  mod8_eq : s.mod8 = mod8Table s.gen s.ebits.toNat
  syn_len : s.syn.length = 2 * s.t.toNat
  elp_len : s.elp.length = 2 * s.t.toNat + 1
  loc_len : s.loc.length = s.t.toNat
  /-- `C[0]` is always 1 (R36) -/
  elp_zero : s.elp.getD 0 0 = 1
  /-- `ELPDEG` is at most 2t - 1 (R21, R25) -/
  elpdeg_le : s.elpdeg.toNat ≤ 2 * s.t.toNat - 1
  /-- no coefficient above `ELPDEG` (R131 (d)) -/
  elp_above : ∀ j, s.elpdeg.toNat < j → s.elp.getD j 0 = 0

/-- What `STAGE` promises (R18, R132, R134): a locator of degree at most t; locations valid and equal in number to the
degree, in descending order (R133). -/
structure StageOk (s : State) : Prop where
  locator : s.stage = .locator → s.elpdeg.toNat ≤ s.t.toNat
  roots : s.stage = .roots → s.nerr = s.elpdeg ∧ s.nerr.toNat ≤ s.t.toNat ∧
    (∀ i, i < s.nerr.toNat → (s.loc.getD i 0).toNat < s.n.toNat) ∧
    (∀ i j, i < j → j < s.nerr.toNat → (s.loc.getD j 0).toNat < (s.loc.getD i 0).toNat)

/-- What the response port and `LASTERR` show (R22, R78): one of the codes 0 to 8, data 0 when it is not 0. -/
def StatusOk (s : State) : Prop :=
  s.lasterr.toNat ≤ 8 ∧ ∃ data, s.rsp = response s.lasterr data ∧ (s.lasterr ≠ 0 → data = 0)

/-- Each derived register is 0 while its writer has not run (R24), and there is no decode before `DERIVE` (R44). -/
structure UnbuiltOk (s : State) : Prop where
  no_field : s.cfgstate = .empty → s.n = 0 ∧ s.prim = 0
  no_code : s.cfgstate ≠ .code → s.ebits = 0 ∧ s.ebytes = 0 ∧ s.kbytes = 0 ∧ s.nerr = 0 ∧ s.elpdeg = 0 ∧
    s.synz = false ∧ s.stage = .idle

/-- The three byte buffers are in canonical form. -/
abbrev BuffersOk (s : State) : Prop := s.msg.wf = true ∧ s.ecc.wf = true ∧ s.eccs.wf = true

/-- The invariant of BCHCORE. -/
structure StateInv (s : State) : Prop where
  buffers : BuffersOk s
  status : StatusOk s
  unbuilt : UnbuiltOk s
  field : s.cfgstate ≠ .empty → FieldOk s
  code : s.cfgstate = .code → CodeOk s
  stage : StageOk s

/-! ## The divider of a derived code, and the polynomials it divides -/

/-- The divider that `DERIVE` sets up for the generator polynomial g (R30, R91). -/
def dividerOf (g : Nat) : Divider := { gen := g, e := g.log2, mod8 := mod8Table g g.log2 }

/-- The message polynomial `Mp` of a k-bit message: buffer bit index 0 is the coefficient of x^(k-1) (R48). -/
def messagePoly (k : Nat) (msg : Memory) : Nat :=
  (List.range k).foldl (fun acc j => acc ^^^ (if msg.bit j then 1 <<< (k - 1 - j) else 0)) 0

/-! ## Runs -/

/-- Commands in order, stopped at the first that fails (R138). -/
def runUntilError (is : List Instr) (s : State) : Host.Outcome State Fault Refusal :=
  match is with
  | [] => .next s
  | i :: rest =>
    match exec i s with
    | .next t => if t.lasterr = 0 then runUntilError rest t else .next t
    | .fault r => .fault r
    | .refused r => .refused r

/-- Equal in all the state the host can observe other than `RSP` and `LASTERR` (R16): everything but the private
scratch of the solver (R37) and the entries of `LOC` at and beyond `NERR` (R39). -/
def SameVisible (t u : State) : Prop :=
  u = { t with rsp := u.rsp, lasterr := u.lasterr, bms := u.bms, loc := u.loc } ∧
    ∀ idx, idx < t.nerr.toNat → u.loc.getD idx 0 = t.loc.getD idx 0

/-- Two states that no command sequence can tell apart by its responses (R43, R44): equal on the port, in every control
register and in `RSP`; equal in the G registers and field tables once a field is built; equal in the code tables, buffers
and decoder results once a code is derived, `LOC` up to `NERR`. What is left free is what R43 calls unspecified. -/
structure Indistinct (s u : State) : Prop where
  port : u.port = s.port
  cfgstate : u.cfgstate = s.cfgstate
  csr : ∀ c, u.readCsr c = s.readCsr c
  rsp : u.rsp = s.rsp
  field : s.cfgstate ≠ .empty → u.g = s.g ∧ u.log = s.log ∧ u.antilog = s.antilog
  code : s.cfgstate = .code → u.gen = s.gen ∧ u.mod8 = s.mod8 ∧ u.msg = s.msg ∧ u.ecc = s.ecc ∧ u.eccs = s.eccs ∧
    u.syn = s.syn ∧ u.elp = s.elp ∧ ∀ idx, idx < s.nerr.toNat → u.loc.getD idx 0 = s.loc.getD idx 0

/-- The responses of the first `k` steps of a run, in order (R178). -/
def responses (k : Nat) (s : State) : List Word :=
  match k with
  | 0 => []
  | k + 1 =>
    match s.port, step s with
    | .command _ :: _, .next t => t.rsp :: responses k t
    | _, .next t => responses k t
    | _, _ => []

end Sys2Proof.Machine
end

