-- ==== Sys2Proof/Certificates/Slice0/Obligations.lean ====
section
/-! DEFINITION. The statements for the provers. A response word is written `response code data`, the word
`{code, 0x00, data}` of rule R78. -/

open Sys2Proof Sys2Proof.Machine

/-! ## The whole machine -/

/-- R43: after reset every control register reads 0 (so CFGSTATE = EMPTY and STAGE = IDLE) and RSP is 0. Nothing is said
of the items R43 leaves unspecified (log entry 1 names the model's values for them). -/
def Obligations.ResetClearsEveryControlRegister : Prop :=
  (∀ c, State.reset.readCsr c = 0) ∧ State.reset.cfgstate = .empty ∧ State.reset.stage = .idle ∧ State.reset.rsp = 0

/-- R43: every item left unspecified at reset is unobservable; the response to every command sequence is a function of
the sequence alone. Two states that differ only in such items answer every port event alike and stay so related, and
the responses of any number of steps are the same from both. -/
def Obligations.UnspecifiedStateIsUnobservable : Prop :=
  ∀ s u, Indistinct s u →
    (∀ s', step s = .next s' → ∃ u', step u = .next u' ∧ Indistinct s' u') ∧ ∀ k, responses k u = responses k s

/-- R175: every command word in every state has one response and one next state; so has every port event. -/
def Obligations.EveryStepHasANextState : Prop :=
  (∀ w s, ∃ t, execWord w s = .next t) ∧ ∀ s, ∃ t, step s = .next t

/-- R75, R81: when the oldest event on the port is a command word, legal or not, the step is the execution of that word,
on the state with the event taken off the port; when the word decodes to i, that is exec of i (the port is the model's
own field, log entry 2). -/
def Obligations.StepRunsTheDecodedCommand : Prop :=
  ∀ s w rest, s.port = .command w :: rest →
    step s = execWord w { s with port := rest } ∧ ∀ i, decode w = .ok i → step s = exec i { s with port := rest }

/-- R165, R178: with nothing on the port the block waits and nothing changes. R164: on hardware reset it takes the
state that CLEAR leaves. (The port and its idle step are the model's own, log entries 2 and 3.) -/
def Obligations.StepWaitsOrResets : Prop :=
  (∀ s, s.port = [] → step s = .next s) ∧
    ∀ s rest, s.port = .reset :: rest → step s = exec .clear { s with port := rest }

/-- R75: every word selects exactly one row of R74, and decodes, or is illegal; an illegal word raises IllegalCommand
and changes nothing but RSP and LASTERR. -/
def Obligations.DecodingIsTotalAndUnambiguous : Prop :=
  ∀ w : Word,
    (∀ row ∈ opcodeMap, ∀ row' ∈ opcodeMap, row.selects w → row'.selects w → row = row') ∧
    (∀ i, decode w = .ok i → opcodeRow i ∈ opcodeMap ∧ (opcodeRow i).selects w) ∧
    ((∃ row ∈ opcodeMap, row.selects w) → ∃ i, decode w = .ok i) ∧
    ((¬∃ row ∈ opcodeMap, row.selects w) →
      ∀ s, execWord w s = .next { s with rsp := response 5 0, lasterr := 5 })

/-- Every command, whatever its operands, is read back from its encoding (R64 to R74). -/
def Obligations.DecodeOfEncode : Prop :=
  ∀ i : Instr, decode (encode i) = .ok i

/-- A word that decodes to i is the encoding of i: no bit of a word is ignored (R63, R75). -/
def Obligations.EncodeOfDecode : Prop :=
  ∀ (w : Word) (i : Instr), decode w = .ok i → encode i = w

/-- Words written out in the spec's own examples (R79, R101, R104, R111, R112) decode to the commands they stand for. -/
def Obligations.SpecWordsDecode : Prop :=
  decode 0x0200000D = .ok (.wrcsr 0x00 13) ∧ decode 0x03060000 = .ok (.rdcsr 0x06) ∧
    decode 0x23312000 = .ok (.gfmul 3 1 2) ∧ decode 0x24652000 = .ok (.gfdiv 6 5 2) ∧
    decode 0x20100006 = .ok (.gfli 1 6) ∧ decode 0x210C0000 = .ok (.gfrd 12) ∧
    decode 0x25850000 = .ok (.gflog 8 5) ∧ decode 0x300000AB = .ok (.stb 0 0 0xAB) ∧
    decode 0x31600009 = .ok (.ld 6 9) ∧ decode 0x41000000 = .ok .decode

/-- R150: IllegalCommand depends on the command word alone, never on state, and changes no state. -/
def Obligations.IllegalCommandDependsOnTheWordAlone : Prop :=
  ∀ w s,
    (illegalWord w = true → execWord w s = .next { s with rsp := response 5 0, lasterr := 5 }) ∧
    (illegalWord w = false → ∀ t, execWord w s = .next t → t.lasterr ≠ 5)

/-- R151: a legal command raises BadSequence exactly in the states of the rule's list, and then changes nothing. -/
def Obligations.BadSequenceExactlyAsListed : Prop :=
  ∀ i s t, WellFormed i = true → exec i s = .next t →
    (t.lasterr = 6 ↔ outOfSequence i s = true) ∧
    (outOfSequence i s = true → t = { s with rsp := response 6 0, lasterr := 6 })

/-- R155: a command that fails changes only RSP and LASTERR, unless it fails with UncorrectableError; then it is a
decoder command, only decoder scratch changes, and STAGE is FAILED. -/
def Obligations.FailuresChangeOnlyScratch : Prop :=
  ∀ i s t, exec i s = .next t → t.lasterr ≠ 0 →
    (t.lasterr ≠ 4 → t = { s with rsp := t.rsp, lasterr := t.lasterr }) ∧
    (t.lasterr = 4 →
      (i = .bmsolve ∨ i = .chien ∨ i = .decode) ∧
      t = { s with elp := t.elp, elpdeg := t.elpdeg, bms := t.bms, loc := t.loc, nerr := t.nerr, eccs := t.eccs,
                   rem := t.rem, syn := t.syn, synz := t.synz, stage := .failed, rsp := t.rsp, lasterr := t.lasterr })

/-- R22, R78, R145: the response carries the code that LASTERR records, a code 0 to 8, and data 0 when the command
failed. -/
def Obligations.EveryResponseCarriesItsCode : Prop :=
  ∀ i s t, exec i s = .next t → StatusOk t

/-- R17: the only transitions of CFGSTATE, those of a hardware reset included, and its values. -/
def Obligations.CfgstateTransitions : Prop :=
  (∀ i s t, exec i s = .next t →
    (t.cfgstate = s.cfgstate ∨
      (i = .gfbuild ∧ t.lasterr = 0 ∧ s.cfgstate = .empty ∧ t.cfgstate = .field) ∨
      (i = .derive ∧ t.lasterr = 0 ∧ s.cfgstate = .field ∧ t.cfgstate = .code) ∨
      (i = .clear ∧ t.cfgstate = .empty)) ∧
    (i = .gfbuild → t.lasterr = 0 → t.cfgstate = .field) ∧
    (i = .derive → t.lasterr = 0 → t.cfgstate = .code) ∧
    (i = .clear → t.cfgstate = .empty)) ∧
    (∀ s t, portEvent .reset s = .next t → t.cfgstate = .empty) ∧
    ∀ s : State, s.readCsr .cfgstate = match s.cfgstate with | .empty => 0 | .field => 1 | .code => 2

/-- R124: the stage machine, a hardware reset included. -/
def Obligations.StageMachine : Prop :=
  (∀ s t, portEvent .reset s = .next t → t.stage = .idle) ∧ ∀ i s t, exec i s = .next t →
    (t.lasterr = 0 → t.stage = stageAfter i s.stage) ∧
    (t.lasterr = 4 → (i = .bmsolve ∨ i = .chien ∨ i = .decode) ∧ t.stage = .failed) ∧
    (t.lasterr ≠ 0 → t.lasterr ≠ 4 → t.stage = s.stage) ∧
    (∀ st, stageRequired i = some st → s.stage ≠ st → t = { s with rsp := response 6 0, lasterr := 6 }) ∧
    (s.cfgstate = .code → i = .synd → t.lasterr = 0) ∧
    (s.cfgstate = .code → i = .decode → t.lasterr = 0 ∨ t.lasterr = 4) ∧
    (s.cfgstate = .code → ∀ st, stageRequired i = some st → s.stage = st → t.lasterr = 0 ∨ t.lasterr = 4)

/-- R40: while CFGSTATE = CODE no command but CLEAR changes the configuration; while it is FIELD none changes M, POLY,
N, PRIM or the tables. -/
def Obligations.ConfigurationLock : Prop :=
  ∀ i s t, i ≠ .clear → exec i s = .next t →
    (s.cfgstate = .code →
      t.m = s.m ∧ t.poly = s.poly ∧ t.t = s.t ∧ t.k = s.k ∧ t.n = s.n ∧ t.prim = s.prim ∧ t.ebits = s.ebits ∧
      t.ebytes = s.ebytes ∧ t.kbytes = s.kbytes ∧ t.log = s.log ∧ t.antilog = s.antilog ∧ t.gen = s.gen ∧
      t.mod8 = s.mod8) ∧
    (s.cfgstate = .field →
      t.m = s.m ∧ t.poly = s.poly ∧ t.n = s.n ∧ t.prim = s.prim ∧ t.log = s.log ∧ t.antilog = s.antilog)

/-- R26: no codec command, load, store or CSR command reads or writes the G registers: with other register contents it
does the same and leaves them alone. -/
def Obligations.OtherCommandsIgnoreTheGRegisters : Prop :=
  ∀ i : Instr, (match i with
      | .encode | .decode | .synd | .bmsolve | .chien | .correct | .stb _ _ _ | .ld _ _ | .wrcsr _ _ | .rdcsr _
      | .derive | .nop => True
      | _ => False) →
    ∀ s t, exec i s = .next t → t.g = s.g ∧ ∀ g', exec i { s with g := g' } = .next { t with g := g' }

/-- R31, R32, R33, R139: which commands can change the three byte buffers; no decoder command changes ECC. -/
def Obligations.WhoChangesTheBuffers : Prop :=
  ∀ i s t, exec i s = .next t →
    (t.msg ≠ s.msg → (∃ idx d, i = .stb 0 idx d) ∨ i = .correct ∨ i = .decode ∨ i = .derive ∨ i = .clear) ∧
    (t.ecc ≠ s.ecc → (∃ idx d, i = .stb 1 idx d) ∨ i = .encode ∨ i = .derive ∨ i = .clear) ∧
    (t.eccs ≠ s.eccs → i = .synd ∨ i = .correct ∨ i = .decode ∨ i = .derive ∨ i = .clear)

/-- R20, R21, R35, R36, R39: which commands can change the decoder's results. -/
def Obligations.WhoChangesTheDecoderResults : Prop :=
  ∀ i s t, exec i s = .next t →
    (t.synz ≠ s.synz → i = .synd ∨ i = .decode ∨ i = .derive ∨ i = .clear) ∧
    (t.syn ≠ s.syn → i = .synd ∨ i = .decode ∨ i = .derive ∨ i = .clear) ∧
    (t.elp ≠ s.elp → i = .synd ∨ i = .bmsolve ∨ i = .decode ∨ i = .derive ∨ i = .clear) ∧
    (t.elpdeg ≠ s.elpdeg → i = .synd ∨ i = .bmsolve ∨ i = .decode ∨ i = .derive ∨ i = .clear) ∧
    (t.loc ≠ s.loc → i = .chien ∨ i = .decode ∨ i = .derive ∨ i = .clear) ∧
    (t.nerr ≠ s.nerr → i = .synd ∨ i = .chien ∨ i = .decode ∨ i = .derive ∨ i = .clear)

/-- R42, R143: no command alters which command comes next, and none depends on what is still on the port (the
model's own field, log entry 2). -/
def Obligations.CommandsIgnoreThePort : Prop :=
  ∀ i s t, exec i s = .next t → t.port = s.port ∧ ∀ p, exec i { s with port := p } = .next { t with port := p }

/-! ## Invariants -/

/-- The invariant holds after reset (it rests on the reset values of log entry 1 only where they are vacuous). -/
def Obligations.ResetMeetsTheInvariant : Prop := StateInv State.reset

/-- Every step keeps the invariant, from every state that meets it: the tables of R28, the G registers of R99, the code
state of R24, R29, R30 and R36, the promises of STAGE of R18, the response of R78, the canonical buffers. -/
def Obligations.StepKeepsTheInvariant : Prop :=
  ∀ s t, StateInv s → step s = .next t → StateInv t

/-- Every step keeps the byte buffers canonical, whatever else the state holds (the model's own form of a buffer, log
entry 4). -/
def Obligations.StepKeepsBuffersCanonical : Prop :=
  ∀ s t, BuffersOk s → step s = .next t → BuffersOk t

/-- Canonical buffers that read alike everywhere are equal (the model's own form of a buffer, log entry 4). -/
def Obligations.CanonicalBuffersAreUnique : Prop :=
  ∀ a b : Memory, a.wf = true → b.wf = true → (∀ i, a.read i = b.read i) → a = b

/-! ## System and configuration commands -/

/-- R82: NOP changes only RSP and LASTERR; with any of bits 23:0 set the word is illegal. -/
def Obligations.NopDoesNothing : Prop :=
  (∀ s, exec .nop s = .next { s with rsp := response 0 0, lasterr := 0 }) ∧ LowBitsZero 0x00

/-- R83, R164: CLEAR completes in every state; afterwards every control register and RSP read 0; a hardware reset leaves
the same state; with any of bits 23:0 set the word is illegal. (That the port keeps what the host has presented is log
entry 2.) -/
def Obligations.ClearResets : Prop :=
  (∀ s, ∃ t, exec .clear s = .next t ∧ (∀ c, t.readCsr c = 0) ∧ t.cfgstate = .empty ∧ t.stage = .idle ∧ t.rsp = 0 ∧
    t.port = s.port ∧ portEvent .reset s = .next t) ∧ LowBitsZero 0x01

/-- R84: what WRCSR does with each register number, in each CFGSTATE. -/
def Obligations.WrcsrWrites : Prop :=
  ∀ (csr : BitVec 8) (v : Half) (s : State),
    (s.cfgstate = .empty → exec (.wrcsr 0x00 v) s = .next { s with m := v, rsp := response 0 0, lasterr := 0 }) ∧
    (s.cfgstate = .empty → exec (.wrcsr 0x01 v) s = .next { s with poly := v, rsp := response 0 0, lasterr := 0 }) ∧
    (s.cfgstate ≠ .code → exec (.wrcsr 0x02 v) s = .next { s with t := v, rsp := response 0 0, lasterr := 0 }) ∧
    (s.cfgstate ≠ .code → exec (.wrcsr 0x03 v) s = .next { s with k := v, rsp := response 0 0, lasterr := 0 }) ∧
    (csr.toNat ≤ 0x01 → s.cfgstate ≠ .empty →
      exec (.wrcsr csr v) s = .next { s with rsp := response 6 0, lasterr := 6 }) ∧
    (0x02 ≤ csr.toNat → csr.toNat ≤ 0x03 → s.cfgstate = .code →
      exec (.wrcsr csr v) s = .next { s with rsp := response 6 0, lasterr := 6 }) ∧
    (0x03 < csr.toNat → exec (.wrcsr csr v) s = .next { s with rsp := response 5 0, lasterr := 5 })

/-- R25, R85: the value each of the fifteen registers reads as, LASTERR being that of the command before; a reserved
number, or any of bits 15:0 set, is illegal. -/
def Obligations.RdcsrReads : Prop :=
  ∀ s : State,
    (∀ p ∈ [(0x00#8, s.m), (0x01#8, s.poly), (0x02#8, s.t), (0x03#8, s.k),
        (0x04#8, match s.cfgstate with | .empty => 0 | .field => 1 | .code => 2),
        (0x05#8, s.n), (0x06#8, s.ebits), (0x07#8, s.ebytes), (0x08#8, s.kbytes),
        (0x09#8, match s.stage with | .idle => 0 | .synd => 1 | .locator => 2 | .roots => 3 | .done => 4 | .failed => 5),
        (0x0A#8, if s.synz then 1 else 0), (0x0B#8, s.nerr), (0x0C#8, s.elpdeg),
        (0x0D#8, s.lasterr.setWidth 16), (0x0E#8, s.prim)],
      exec (.rdcsr p.1) s = .next { s with rsp := response 0 p.2, lasterr := 0 }) ∧
    ∀ csr : BitVec 8,
      (0x0E < csr.toNat → exec (.rdcsr csr) s = .next { s with rsp := response 5 0, lasterr := 5 }) ∧
      ∀ x : Half, x ≠ 0 → execWord (0x03#8 ++ csr ++ x) s = .next { s with rsp := response 5 0, lasterr := 5 }

/-- R24, R86, R88: the polynomial P in use is POLY when that is not 0, else DEFPOLY[m] (the table of R87). GFBUILD in
EMPTY, with an order 2 to 15 and a primitive P of exactly that degree, builds the tables of R27 and R28 for P, puts P in
PRIM and zeroes the G registers; with anything else it raises InvalidFieldOrder and changes nothing; outside EMPTY it
raises BadSequence. -/
def Obligations.GfbuildBuildsTheField : Prop :=
  ∀ (s : State) (P : Nat), P = (if s.poly = 0 then Config.defPoly s.m.toNat else s.poly.toNat) →
    (s.cfgstate = .empty → 2 ≤ s.m.toNat → s.m.toNat ≤ 15 → P >>> s.m.toNat = 1 → Primitive s.m.toNat P →
      ∃ t, exec .gfbuild s = .next t ∧
        t = { s with
          antilog := t.antilog, log := t.log, n := BitVec.ofNat 16 (2 ^ s.m.toNat - 1)
          prim := BitVec.ofNat 16 P, g := Vector.replicate 16 0, cfgstate := .field
          rsp := response 0 (BitVec.ofNat 16 (2 ^ s.m.toNat - 1)), lasterr := 0 } ∧
        t.prim.toNat = P ∧ TablesOk t.m.toNat P t.tables) ∧
    (s.cfgstate = .empty →
      (s.m.toNat < 2 ∨ 15 < s.m.toNat ∨ P >>> s.m.toNat ≠ 1 ∨ ¬Primitive s.m.toNat P) →
      exec .gfbuild s = .next { s with rsp := response 1 0, lasterr := 1 }) ∧
    (s.cfgstate ≠ .empty → exec .gfbuild s = .next { s with rsp := response 6 0, lasterr := 6 })

/-- R87: the fourteen default polynomials, m = 2 to 15, are those of the table, and each is primitive of its order. -/
def Obligations.DefaultPolynomialsArePrimitive : Prop :=
  (List.range' 2 14).map Config.defPoly =
    [0x0007, 0x000B, 0x0013, 0x0025, 0x0043, 0x0083, 0x011D, 0x0211, 0x0409, 0x0805, 0x1053, 0x201B, 0x402B, 0x8003] ∧
  ∀ m, 2 ≤ m → m ≤ 15 → Config.defPoly m >>> m = 1 ∧ Primitive m (Config.defPoly m)

/-- R90, R91: DERIVE in FIELD, when the capacity tests pass, commits the code; when one fails it raises CapacityExceeded
and changes nothing; outside FIELD it raises BadSequence. -/
def Obligations.DeriveCommitsTheCode : Prop :=
  ∀ s : State, ∀ g, g = genPoly s.tables s.m.toNat s.t.toNat →
    (s.cfgstate = .field → 1 ≤ s.t.toNat → s.m.toNat * s.t.toNat < s.n.toNat → 1 ≤ s.k.toNat →
      s.k.toNat + g.log2 ≤ s.n.toNat →
      ∃ t, exec .derive s = .next t ∧
        t = { s with
          gen := g, mod8 := t.mod8, ebits := BitVec.ofNat 16 g.log2
          ebytes := BitVec.ofNat 16 ((g.log2 + 7) / 8), kbytes := BitVec.ofNat 16 ((s.k.toNat + 7) / 8)
          msg := t.msg, ecc := t.ecc, eccs := t.eccs, syn := t.syn, elp := t.elp, loc := t.loc
          elpdeg := 0, nerr := 0, synz := false, stage := .idle, cfgstate := .code
          rsp := response 0 (BitVec.ofNat 16 g.log2), lasterr := 0 } ∧
        (∀ b, b < 256 → t.mod8.getD b 0 = pmod (b <<< g.log2) g) ∧
        (∀ a, t.msg.read a = 0 ∧ t.ecc.read a = 0 ∧ t.eccs.read a = 0) ∧
        t.syn = List.replicate (2 * s.t.toNat) 0 ∧ t.elp = 1 :: List.replicate (2 * s.t.toNat) 0 ∧
        t.loc = List.replicate s.t.toNat 0) ∧
    (s.cfgstate = .field →
      (s.t.toNat < 1 ∨ s.n.toNat ≤ s.m.toNat * s.t.toNat ∨ s.k.toNat < 1 ∨ s.n.toNat < s.k.toNat + g.log2) →
      exec .derive s = .next { s with rsp := response 2 0, lasterr := 2 }) ∧
    (s.cfgstate ≠ .field → exec .derive s = .next { s with rsp := response 6 0, lasterr := 6 })

/-- R89: the generator polynomials the rule names for m = 4. -/
def Obligations.GeneratorExamples : Prop :=
  ∃ A L, buildField 4 0x13 = some (A, L) ∧
    genPoly { n := 15, log := L, antilog := A } 4 1 = 0x13 ∧
    genPoly { n := 15, log := L, antilog := A } 4 2 = 0x1D1 ∧
    genPoly { n := 15, log := L, antilog := A } 4 3 = 0x537

/-- R89: for every field and every t that passes the first capacity test, the generator polynomial is not 0 and its
degree is at least 1 and at most m·t. -/
def Obligations.GeneratorDegreeBounds : Prop :=
  ∀ m P F t, TablesOk m P F → 1 ≤ t → m * t < F.n →
    genPoly F m t ≠ 0 ∧ 1 ≤ (genPoly F m t).log2 ∧ (genPoly F m t).log2 ≤ m * t

/-! ## Field arithmetic -/

/-- R101, R102: GFLI writes its immediate, GFRD answers its register, and nothing else changes; in EMPTY both raise
BadSequence; GFLI refuses an immediate greater than n. (A register of GFRD is at most n by the invariant of R99; for
one that is not, see log entry 7.) -/
def Obligations.GfliLoadsAndGfrdReads : Prop :=
  ∀ (r : GReg) (v : Half) (s : State),
    (s.cfgstate ≠ .empty →
      (v.toNat ≤ s.n.toNat → exec (.gfli r v) s = .next { s with
        g := s.g.set r.toNat v r.isLt, rsp := response 0 0, lasterr := 0 }) ∧
      (s.n.toNat < v.toNat → exec (.gfli r v) s = .next { s with rsp := response 8 0, lasterr := 8 }) ∧
      ((s.readG r).toNat ≤ s.n.toNat → exec (.gfrd r) s = .next { s with
        rsp := response 0 (s.readG r), lasterr := 0 })) ∧
    (s.cfgstate = .empty →
      exec (.gfli r v) s = .next { s with rsp := response 6 0, lasterr := 6 } ∧
      exec (.gfrd r) s = .next { s with rsp := response 6 0, lasterr := 6 })

/-- R103, R104, R105: GFADD, GFMUL and GFDIV write the sum, product and quotient of their sources (read before the
destination is written) to G[rd], answer it, and change nothing else. -/
def Obligations.GfBinaryCommandsCompute : Prop :=
  ∀ (rd a b : GReg) (s : State), s.cfgstate ≠ .empty → (s.readG a).toNat ≤ s.n.toNat → (s.readG b).toNat ≤ s.n.toNat →
    exec (.gfadd rd a b) s = .next { s with
      g := s.g.set rd.toNat (s.readG a ^^^ s.readG b) rd.isLt
      rsp := response 0 (s.readG a ^^^ s.readG b), lasterr := 0 } ∧
    exec (.gfmul rd a b) s = .next { s with
      g := s.g.set rd.toNat (s.tables.mul (s.readG a) (s.readG b)) rd.isLt
      rsp := response 0 (s.tables.mul (s.readG a) (s.readG b)), lasterr := 0 } ∧
    (s.readG b ≠ 0 → exec (.gfdiv rd a b) s = .next { s with
      g := s.g.set rd.toNat (s.tables.div (s.readG a) (s.readG b)) rd.isLt
      rsp := response 0 (s.tables.div (s.readG a) (s.readG b)), lasterr := 0 }) ∧
    (s.readG b = 0 → exec (.gfdiv rd a b) s = .next { s with rsp := response 7 0, lasterr := 7 })

/-- R106, R107: GFLOG and GFALOG write the table entry their source indexes to G[rd], answer it, and change nothing
else; in a built field the logarithm of 0 is the sentinel n and the antilogarithm of n is 1. -/
def Obligations.GfTableCommandsLookUp : Prop :=
  ∀ (rd a : GReg) (s : State), s.cfgstate ≠ .empty → FieldOk s →
    exec (.gflog rd a) s = .next { s with
      g := s.g.set rd.toNat (s.log.getD (s.readG a).toNat 0) rd.isLt
      rsp := response 0 (s.log.getD (s.readG a).toNat 0), lasterr := 0 } ∧
    exec (.gfalog rd a) s = .next { s with
      g := s.g.set rd.toNat (s.antilog.getD (s.readG a).toNat 0) rd.isLt
      rsp := response 0 (s.antilog.getD (s.readG a).toNat 0), lasterr := 0 } ∧
    (s.readG a = 0 → s.log.getD (s.readG a).toNat 0 = s.n) ∧
    (s.readG a = s.n → s.antilog.getD (s.readG a).toNat 0 = 1)

/-- R100, R153, R154: the checks common to the seven commands: BadSequence in EMPTY, then OperandRange for a source
greater than n; a command that fails a check writes no register. For GFRD see log entry 7. -/
def Obligations.GfChecksComeInOrder : Prop :=
  ∀ (rd a b : GReg) (v : Half) (s : State),
    (∀ i ∈ [Instr.gfli rd v, .gfrd a, .gfadd rd a b, .gfmul rd a b, .gfdiv rd a b, .gflog rd a, .gfalog rd a],
      s.cfgstate = .empty → exec i s = .next { s with rsp := response 6 0, lasterr := 6 }) ∧
    (s.cfgstate ≠ .empty → s.n.toNat < v.toNat →
      exec (.gfli rd v) s = .next { s with rsp := response 8 0, lasterr := 8 }) ∧
    (∀ i ∈ [Instr.gfrd a, .gfadd rd a b, .gfadd rd b a, .gfmul rd a b, .gfmul rd b a, .gfdiv rd a b, .gfdiv rd b a,
        .gflog rd a, .gfalog rd a],
      s.cfgstate ≠ .empty → s.n.toNat < (s.readG a).toNat →
        exec i s = .next { s with rsp := response 8 0, lasterr := 8 })

/-- R96: gf_mul is multiplication in GF(2)[x]/(P), the carry-less product of a and b reduced modulo P. -/
def Obligations.GfMulIsThePolynomialProduct : Prop :=
  ∀ m P F a b, TablesOk m P F → F.elem a → F.elem b → (F.mul a b).toNat = pmod (clmul a.toNat b.toNat) P

/-- R98: the field laws (a) to (g). -/
def Obligations.FieldLaws : Prop :=
  ∀ m P F a b c, TablesOk m P F → F.elem a → F.elem b → F.elem c →
    (F.mul a b = F.mul b a ∧ F.mul (F.mul a b) c = F.mul a (F.mul b c) ∧ F.mul 1 a = a) ∧
    F.mul a (gfAdd b c) = gfAdd (F.mul a b) (F.mul a c) ∧
    (b ≠ 0 → F.mul (F.div a b) b = a) ∧
    (F.mul a b = 0 ↔ a = 0 ∨ b = 0) ∧
    ((a ≠ 0 → F.pow (F.logAt a.toNat).toNat = a) ∧ ∀ e, (F.logAt (F.pow e).toNat).toNat = e % F.n) ∧
    (∀ e1 e2, F.pow (e1 + e2) = F.mul (F.pow e1) (F.pow e2)) ∧
    F.mul (gfAdd a b) (gfAdd a b) = gfAdd (F.mul a a) (F.mul b b)

/-! ## Buffers -/

/-- R111: what STB does for each space, index and CFGSTATE, in the order of its checks. -/
def Obligations.StbStoresOneByte : Prop :=
  ∀ (space : BitVec 4) (idx : BitVec 12) (d : Byte) (s : State), BuffersOk s →
    (s.cfgstate = .code → idx.toNat < s.kbytes.toNat →
      ∃ t, exec (.stb 0 idx d) s = .next t ∧
        t = { s with msg := t.msg, stage := .idle, rsp := response 0 0, lasterr := 0 } ∧
        t.msg.read idx.toNat = d ∧ ∀ a, a ≠ idx.toNat → t.msg.read a = s.msg.read a) ∧
    (s.cfgstate = .code → idx.toNat < s.ebytes.toNat →
      ∃ t, exec (.stb 1 idx d) s = .next t ∧
        t = { s with ecc := t.ecc, stage := .idle, rsp := response 0 0, lasterr := 0 } ∧
        t.ecc.read idx.toNat = d ∧ ∀ a, a ≠ idx.toNat → t.ecc.read a = s.ecc.read a) ∧
    (1 < space.toNat → exec (.stb space idx d) s = .next { s with rsp := response 5 0, lasterr := 5 }) ∧
    (space.toNat ≤ 1 → s.cfgstate ≠ .code →
      exec (.stb space idx d) s = .next { s with rsp := response 6 0, lasterr := 6 }) ∧
    (s.cfgstate = .code → s.kbytes.toNat ≤ idx.toNat →
      exec (.stb 0 idx d) s = .next { s with rsp := response 3 0, lasterr := 3 }) ∧
    (s.cfgstate = .code → s.ebytes.toNat ≤ idx.toNat →
      exec (.stb 1 idx d) s = .next { s with rsp := response 3 0, lasterr := 3 })

/-- R45, R50, R110, R112: what LD answers for each space in range; it changes nothing but RSP and LASTERR. Refused, in
this order: a reserved space, a CFGSTATE in which the space is not usable, an index at or beyond its length. -/
def Obligations.LdReadsOneElement : Prop :=
  ∀ (space : BitVec 4) (idx : Half) (s : State),
    (s.cfgstate = .code →
      (idx.toNat < s.kbytes.toNat → exec (.ld 0 idx) s = .next { s with
        rsp := response 0 ((s.msg.read idx.toNat).setWidth 16), lasterr := 0 }) ∧
      (idx.toNat < s.ebytes.toNat → exec (.ld 1 idx) s = .next { s with
        rsp := response 0 ((s.ecc.read idx.toNat).setWidth 16), lasterr := 0 }) ∧
      (idx.toNat < s.ebytes.toNat → exec (.ld 2 idx) s = .next { s with
        rsp := response 0 ((s.eccs.read idx.toNat).setWidth 16), lasterr := 0 }) ∧
      (idx.toNat < 2 * s.t.toNat → exec (.ld 3 idx) s = .next { s with
        rsp := response 0 (s.syn.getD idx.toNat 0), lasterr := 0 }) ∧
      (idx.toNat < 2 * s.t.toNat + 1 → exec (.ld 4 idx) s = .next { s with
        rsp := response 0 (s.elp.getD idx.toNat 0), lasterr := 0 }) ∧
      (idx.toNat < s.nerr.toNat → exec (.ld 5 idx) s = .next { s with
        rsp := response 0 (s.loc.getD idx.toNat 0), lasterr := 0 }) ∧
      (idx.toNat < (s.ebits.toNat + 8) / 8 → ∃ v : Byte,
        exec (.ld 8 idx) s = .next { s with rsp := response 0 (v.setWidth 16), lasterr := 0 } ∧
        ∀ b, b < 8 → v.getMsbD b =
          (decide (8 * idx.toNat + b ≤ s.ebits.toNat) && s.gen.testBit (s.ebits.toNat - (8 * idx.toNat + b))))) ∧
    (s.cfgstate ≠ .empty → idx.toNat ≤ s.n.toNat →
      exec (.ld 6 idx) s = .next { s with rsp := response 0 (s.log.getD idx.toNat 0), lasterr := 0 } ∧
      exec (.ld 7 idx) s = .next { s with rsp := response 0 (s.antilog.getD idx.toNat 0), lasterr := 0 }) ∧
    (8 < space.toNat → exec (.ld space idx) s = .next { s with rsp := response 5 0, lasterr := 5 }) ∧
    (space.toNat ≤ 8 → (if space = 6 ∨ space = 7 then s.cfgstate = .empty else s.cfgstate ≠ .code) →
      exec (.ld space idx) s = .next { s with rsp := response 6 0, lasterr := 6 }) ∧
    (∀ p ∈ [(0#4, s.kbytes.toNat), (1#4, s.ebytes.toNat), (2#4, s.ebytes.toNat), (3#4, 2 * s.t.toNat),
        (4#4, 2 * s.t.toNat + 1), (5#4, s.nerr.toNat), (6#4, s.n.toNat + 1), (7#4, s.n.toNat + 1),
        (8#4, (s.ebits.toNat + 8) / 8)],
      (if p.1 = 6 ∨ p.1 = 7 then s.cfgstate ≠ .empty else s.cfgstate = .code) → p.2 ≤ idx.toNat →
        exec (.ld p.1 idx) s = .next { s with rsp := response 3 0, lasterr := 3 })

/-! ## The divider and the encoder -/

/-- R118: the byte step through the table is eight bit-serial steps, highest bit first. -/
def Obligations.ByteStepIsEightBitSteps : Prop :=
  ∀ (g R : Nat) (d : Byte), 2 ≤ g → R < 2 ^ g.log2 →
    (dividerOf g).step8 R d = ((List.range 8).map d.getMsbD).foldl (dividerOf g).step1 R

/-- R114, R119: the divider's remainder of a message is the message polynomial times x^E modulo g, for every message
length. -/
def Obligations.RemainderIsThePolynomialRemainder : Prop :=
  ∀ (g k : Nat) (msg : Memory), 2 ≤ g →
    (dividerOf g).remainder k msg = pmod (messagePoly k msg <<< g.log2) g

/-- R120: unpack undoes pack; pack undoes unpack but for the padding bits, which it clears; the bytes are those of the
closed form. -/
def Obligations.PackAndUnpack : Prop :=
  (∀ (w R : Nat) (mem : Memory), R < 2 ^ w → mem.wf = true → unpack w (mem.writeBytes 0 (pack w R)) = R) ∧
    (∀ (w : Nat) (buf : Memory) (i b : Nat), i < (w + 7) / 8 → b < 8 →
      ((pack w (unpack w buf)).getD i 0).getMsbD b = (decide (8 * i + b < w) && buf.bit (8 * i + b))) ∧
    (∀ w R i, R < 2 ^ w → i < (w + 7) / 8 →
      (pack w R).getD i 0 =
        BitVec.ofNat 8 ((R <<< (8 * ((w + 7) / 8) - w)) >>> (8 * ((w + 7) / 8 - 1 - i))))

/-- R122 (b): the encoder is linear: the remainder of the bitwise sum of two messages is the sum of their remainders. -/
def Obligations.EncodingIsLinear : Prop :=
  ∀ (g k : Nat) (a b c : Memory), 2 ≤ g → (∀ j, j < k → c.bit j = (a.bit j ^^ b.bit j)) →
    (dividerOf g).remainder k c = (dividerOf g).remainder k a ^^^ (dividerOf g).remainder k b

/-- R123: leading zero message bits leave the remainder unchanged. -/
def Obligations.ShorteningInvariance : Prop :=
  ∀ (g k1 k2 : Nat) (msg1 msg2 : Memory), 2 ≤ g → k1 ≤ k2 → (∀ j, j < k2 - k1 → msg2.bit j = false) →
    (∀ j, j < k1 → msg2.bit (k2 - k1 + j) = msg1.bit j) →
    (dividerOf g).remainder k2 msg2 = (dividerOf g).remainder k1 msg1

/-- R114, R121: ENCODE writes the E bits of Mp(x)·x^E mod g(x) to ECC, highest power first, padding bits 0, sets STAGE to
IDLE, and changes nothing else; outside CODE it raises BadSequence; any of bits 23:0 set is illegal. -/
def Obligations.EncodeWritesTheRemainder : Prop :=
  (LowBitsZero 0x40 ∧ ∀ s, s.cfgstate ≠ .code → exec .encode s = .next { s with rsp := response 6 0, lasterr := 6 }) ∧
  ∀ s, s.cfgstate = .code → CodeOk s → BuffersOk s →
    ∃ t, exec .encode s = .next t ∧
      t = { s with ecc := t.ecc, stage := .idle, rsp := response 0 0, lasterr := 0 } ∧
      (∀ j, j < s.ebits.toNat → t.ecc.bit j =
        (pmod (messagePoly s.k.toNat s.msg <<< s.ebits.toNat) s.gen).testBit (s.ebits.toNat - 1 - j)) ∧
      (∀ j, s.ebits.toNat ≤ j → j < 8 * s.ebytes.toNat → t.ecc.bit j = false) ∧
      (∀ a, s.ebytes.toNat ≤ a → t.ecc.read a = s.ecc.read a)

/-- R122 (c): after ENCODE, SYND answers 1 and DECODE answers 0 corrected bits without changing MSG or ECC. -/
def Obligations.EncodeThenDecodeIsClean : Prop :=
  ∀ s, s.cfgstate = .code → CodeOk s → BuffersOk s →
    ∃ t u v, exec .encode s = .next t ∧ exec .synd t = .next u ∧ u.rsp = response 0 1 ∧
      exec .decode t = .next v ∧ v.rsp = response 0 0 ∧ v.lasterr = 0 ∧ v.msg = s.msg ∧ v.ecc = t.ecc ∧
      v.stage = .done ∧ v.synz = true ∧ v.nerr = 0

/-! ## The decoder -/

/-- R129: SYND copies ECC without its padding bits, computes REM and the 2t syndromes and SYNZ, resets the locator and
the counts, and changes nothing else; outside CODE it raises BadSequence; any of bits 23:0 set is illegal. -/
def Obligations.SyndComputesTheSyndromes : Prop :=
  (LowBitsZero 0x42 ∧ ∀ s, s.cfgstate ≠ .code → exec .synd s = .next { s with rsp := response 6 0, lasterr := 6 }) ∧
  ∀ s, s.cfgstate = .code → BuffersOk s →
    ∃ t, exec .synd s = .next t ∧
      t = { s with
        eccs := t.eccs, rem := s.divider.remainder s.k.toNat s.msg ^^^ unpack s.ebits.toNat s.ecc, syn := t.syn
        synz := t.synz, elp := 1 :: List.replicate (2 * s.t.toNat) 0, elpdeg := 0, nerr := 0, stage := .synd
        rsp := response 0 (if t.synz then 1 else 0), lasterr := 0 } ∧
      t.syn.length = 2 * s.t.toNat ∧
      (∀ i, i < 2 * s.t.toNat → t.syn.getD i 0 = (List.range s.ebits.toNat).foldl
        (fun v p => if t.rem.testBit p then v ^^^ s.tables.pow ((i + 1) * p) else v) 0) ∧
      (t.synz = true ↔ ∀ i, i < 2 * s.t.toNat → t.syn.getD i 0 = 0) ∧
      (∀ j, j < 8 * ((s.ebits.toNat + 7) / 8) → t.eccs.bit j = (decide (j < s.ebits.toNat) && s.ecc.bit j)) ∧
      (∀ a, (s.ebits.toNat + 7) / 8 ≤ a → t.eccs.read a = s.eccs.read a)

/-- R128 (a): in every derived code, all 2t syndromes are zero exactly when the remainder is zero. -/
def Obligations.SyndromesAreZeroExactlyOnCodewords : Prop :=
  ∀ m P F t rem, TablesOk m P F → 1 ≤ t → m * t < F.n → rem < 2 ^ (genPoly F m t).log2 →
    ((∀ i, 1 ≤ i → i ≤ 2 * t → syndromeAt F (genPoly F m t).log2 rem i = 0) ↔ rem = 0)

/-- R128 (b): in every field the even syndromes are squares: S_2i = S_i · S_i. -/
def Obligations.EvenSyndromesAreSquares : Prop :=
  ∀ m P F e rem i, TablesOk m P F →
    syndromeAt F e rem (2 * i) = F.mul (syndromeAt F e rem i) (syndromeAt F e rem i)

/-- R132: BMSOLVE after SYND writes the solver's polynomial, its degree and the scratch; L > t is UncorrectableError. In
any other state it raises BadSequence; any of bits 23:0 set is illegal. That BMS is left holding the solver's last values
(`bms := r.scratch`) is the model's choice, log entries 6 and 14: R37 and U2 call BMS meaningless afterwards. -/
def Obligations.BmsolveRunsTheSolver : Prop :=
  (LowBitsZero 0x43 ∧ ∀ s, s.cfgstate ≠ .code ∨ s.stage ≠ .synd → exec .bmsolve s = .next { s with rsp := response 6 0, lasterr := 6 }) ∧
  ∀ s r, s.cfgstate = .code → s.stage = .synd → r = bm s.tables s.syn s.t.toNat →
    (r.l ≤ s.t.toNat → exec .bmsolve s = .next { s with
      elp := r.c, elpdeg := BitVec.ofNat 16 r.l, bms := r.scratch, stage := .locator
      rsp := response 0 (BitVec.ofNat 16 r.l), lasterr := 0 }) ∧
    (s.t.toNat < r.l → exec .bmsolve s = .next { s with
      elp := r.c, elpdeg := BitVec.ofNat 16 r.l, bms := r.scratch, stage := .failed
      rsp := response 4 0, lasterr := 4 })

/-- R131 (a), (b), (d), (e): for all tables and syndromes: the last discrepancy is never 0, the degree counter is at
most 2t - 1 and never falls, C[0] = 1, and no coefficient stands above the degree counter. -/
def Obligations.SolverBounds : Prop :=
  ∀ F syn t,
    (bm F syn t).scratch.pd ≠ 0 ∧ (bm F syn t).l ≤ 2 * t - 1 ∧ (bm F syn t).c.length = 2 * t + 1 ∧
    (bm F syn t).c.getD 0 0 = 1 ∧ (∀ j, (bm F syn t).l < j → (bm F syn t).c.getD j 0 = 0) ∧
    ∀ i st, st.l ≤ (bmIter F syn t i st).l

/-- R131 (g): with all syndromes zero the solver ends with C = 1 and L = 0. -/
def Obligations.SolverOnZeroSyndromes : Prop :=
  ∀ F syn t, (∀ i, syn.getD i 0 = 0) →
    (bm F syn t).l = 0 ∧ (bm F syn t).c = 1 :: List.replicate (2 * t) 0

/-- R133, R134: CHIEN after a successful BMSOLVE counts the roots among α^1 .. α^n; as long as there are at most t, LOC
lists exactly the positions n - i of the roots α^i, in descending order; the count must equal ELPDEG. In any other state
it raises BadSequence; any of bits 23:0 set is illegal. -/
def Obligations.ChienFindsExactlyTheRoots : Prop :=
  (LowBitsZero 0x44 ∧ ∀ s, s.cfgstate ≠ .code ∨ s.stage ≠ .locator → exec .chien s = .next { s with rsp := response 6 0, lasterr := 6 }) ∧
  ∀ s cnt, s.cfgstate = .code → s.stage = .locator →
    cnt = ((List.range' 1 s.n.toNat).filter fun i => locatorAt s.tables s.elp s.elpdeg.toNat i == 0).length →
    ∃ t, exec .chien s = .next t ∧
      (cnt = s.elpdeg.toNat → t = { s with
        loc := t.loc, nerr := BitVec.ofNat 16 cnt, stage := .roots
        rsp := response 0 (BitVec.ofNat 16 cnt), lasterr := 0 }) ∧
      (cnt ≠ s.elpdeg.toNat → t = { s with
        loc := t.loc, nerr := BitVec.ofNat 16 cnt, stage := .failed, rsp := response 4 0, lasterr := 4 }) ∧
      (cnt ≤ s.t.toNat →
        (∀ p, p < s.n.toNat →
          (locatorAt s.tables s.elp s.elpdeg.toNat (s.n.toNat - p) = 0 ↔
            ∃ idx, idx < cnt ∧ (t.loc.getD idx 0).toNat = p)) ∧
        (∀ i j, i < j → j < cnt → (t.loc.getD j 0).toNat < (t.loc.getD i 0).toNat))

/-- R136, R137: CORRECT after a successful CHIEN flips exactly the message bits and the bits of the scratch copy of the
ECC that stand at the listed positions; it answers NERR and changes nothing else. In any other state it raises
BadSequence; any of bits 23:0 set is illegal. -/
def Obligations.CorrectFlipsExactlyTheListedBits : Prop :=
  (LowBitsZero 0x45 ∧ ∀ s, s.cfgstate ≠ .code ∨ s.stage ≠ .roots → exec .correct s = .next { s with rsp := response 6 0, lasterr := 6 }) ∧
  ∀ s, s.cfgstate = .code → s.stage = .roots → BuffersOk s →
    (∀ i j, i < j → j < s.nerr.toNat → s.loc.getD i 0 ≠ s.loc.getD j 0) →
    ∃ t, exec .correct s = .next t ∧
      t = { s with msg := t.msg, eccs := t.eccs, stage := .done, rsp := response 0 s.nerr, lasterr := 0 } ∧
      (∀ j, (j < s.k.toNat ∧ ∃ idx, idx < s.nerr.toNat ∧
          (s.loc.getD idx 0).toNat = s.k.toNat + s.ebits.toNat - 1 - j) → t.msg.bit j = !s.msg.bit j) ∧
      (∀ j, ¬(j < s.k.toNat ∧ ∃ idx, idx < s.nerr.toNat ∧
          (s.loc.getD idx 0).toNat = s.k.toNat + s.ebits.toNat - 1 - j) → t.msg.bit j = s.msg.bit j) ∧
      (∀ j, (j < s.ebits.toNat ∧ ∃ idx, idx < s.nerr.toNat ∧
          (s.loc.getD idx 0).toNat = s.ebits.toNat - 1 - j) → t.eccs.bit j = !s.eccs.bit j) ∧
      (∀ j, ¬(j < s.ebits.toNat ∧ ∃ idx, idx < s.nerr.toNat ∧
          (s.loc.getD idx 0).toNat = s.ebits.toNat - 1 - j) → t.eccs.bit j = s.eccs.bit j)

/-- R138: DECODE leaves the state that SYND, BMSOLVE, CHIEN, CORRECT leave, stopped at the first failing command, except
for RSP and LASTERR (and what the host cannot observe); it answers NERR, or UncorrectableError when a stage did. Outside
CODE it raises BadSequence; any of bits 23:0 set is illegal. -/
def Obligations.DecodeIsTheFourStages : Prop :=
  (LowBitsZero 0x41 ∧ ∀ s, s.cfgstate ≠ .code → exec .decode s = .next { s with rsp := response 6 0, lasterr := 6 }) ∧
  ∀ s, s.cfgstate = .code → FieldOk s →
    ∃ t u, exec .decode s = .next t ∧ runUntilError [.synd, .bmsolve, .chien, .correct] s = .next u ∧ SameVisible t u ∧
      ((u.lasterr = 0 ∧ t.lasterr = 0 ∧ t.rsp = response 0 t.nerr ∧ t.stage = .done) ∨
        (u.lasterr = 4 ∧ t.lasterr = 4 ∧ t.rsp = response 4 0 ∧ t.stage = .failed))

/-- R78, R138, R139: DECODE completes in every CODE state, with success or UncorrectableError; ECC never changes, MSG
changes only on success, and nothing but MSG and decoder scratch changes. -/
def Obligations.DecodeIsAllOrNothing : Prop :=
  ∀ s, s.cfgstate = .code →
    ∃ t, exec .decode s = .next t ∧
      t = { s with
        msg := t.msg, eccs := t.eccs, rem := t.rem, syn := t.syn, synz := t.synz, elp := t.elp, elpdeg := t.elpdeg
        bms := t.bms, loc := t.loc, nerr := t.nerr, stage := t.stage, rsp := t.rsp, lasterr := t.lasterr } ∧
      ((t.lasterr = 0 ∧ t.stage = .done ∧ t.rsp = response 0 t.nerr) ∨
        (t.lasterr = 4 ∧ t.stage = .failed ∧ t.rsp = response 4 0 ∧ t.msg = s.msg))

/-- R140: after ENCODE, flip any set ps of at most t positions among the k message bits and the E ECC bits (padding bits
may hold anything): DECODE answers their number, restores the message bits, leaves the corrupted ECC, holds the original
one in ECCS, and lists exactly the flipped positions, in descending order. -/
def Obligations.DecodeCorrectsUpToTErrors : Prop :=
  ∀ s, s.cfgstate = .code → FieldOk s → CodeOk s → BuffersOk s → ∀ t, exec .encode s = .next t →
    ∀ ps : List Nat, ps.Pairwise (· > ·) → (∀ p ∈ ps, p < s.k.toNat + s.ebits.toNat) → ps.length ≤ s.t.toNat →
    ∀ ms ec, ms.wf = true → ec.wf = true →
    (∀ j, j < s.k.toNat → ms.bit j = (s.msg.bit j ^^ decide (s.k.toNat + s.ebits.toNat - 1 - j ∈ ps))) →
    (∀ j, j < s.ebits.toNat → ec.bit j = (t.ecc.bit j ^^ decide (s.ebits.toNat - 1 - j ∈ ps))) →
    ∃ v, exec .decode { t with msg := ms, ecc := ec } = .next v ∧
      v.rsp = response 0 (BitVec.ofNat 16 ps.length) ∧ v.lasterr = 0 ∧ v.stage = .done ∧
      (∀ j, j < s.k.toNat → v.msg.bit j = s.msg.bit j) ∧ v.ecc = ec ∧
      (∀ a, a < s.ebytes.toNat → v.eccs.read a = t.ecc.read a) ∧
      v.nerr.toNat = ps.length ∧ v.elpdeg.toNat = ps.length ∧
      ∀ idx, idx < ps.length → (v.loc.getD idx 0).toNat = ps.getD idx 0

/-- R140 for one error, in every derived code: one flipped bit, in the message or in the ECC, is found and corrected. -/
def Obligations.DecodeCorrectsOneError : Prop :=
  ∀ s, s.cfgstate = .code → FieldOk s → CodeOk s → BuffersOk s → ∀ t, exec .encode s = .next t →
    ∀ p, p < s.k.toNat + s.ebits.toNat →
    ∀ ms ec, (ms, ec) = correctOne s.k.toNat s.ebits.toNat (s.msg, t.ecc) p →
    ∃ v, exec .decode { t with msg := ms, ecc := ec } = .next v ∧
      v.rsp = response 0 1 ∧ v.lasterr = 0 ∧ v.stage = .done ∧ v.msg = s.msg ∧ v.ecc = ec ∧ v.nerr = 1 ∧ v.elpdeg = 1 ∧
      (v.loc.getD 0 0).toNat = p
end

