-- ==== Sys2Proof/Laws/Encoding.lean ====
section
/-! SUPPORT. Reading a field back from words put side by side: what decoding an encoded command comes down to. -/

namespace Sys2Proof

/-- A field that lies in the lower word. -/
theorem extract_append_lo {w v : Nat} (x : BitVec w) (y : BitVec v) (lo n : Nat) (h : lo + n ≤ v) :
    (x ++ y).extractLsb' lo n = y.extractLsb' lo n := by
  apply BitVec.eq_of_getLsbD_eq
  intro i hi
  simp only [BitVec.getLsbD_extractLsb', BitVec.getLsbD_append]
  rw [if_pos (by omega)]

/-- A field that lies in the upper word. -/
theorem extract_append_hi {w v : Nat} (x : BitVec w) (y : BitVec v) (lo n : Nat) (h : v ≤ lo) :
    (x ++ y).extractLsb' lo n = x.extractLsb' (lo - v) n := by
  apply BitVec.eq_of_getLsbD_eq
  intro i hi
  simp only [BitVec.getLsbD_extractLsb', BitVec.getLsbD_append]
  rw [if_neg (by omega), show lo + i - v = lo - v + i by omega]

/-- A format's checked result (R63). -/
@[simp] theorem zeroBits_true (o : BitVec 8) (i : Instr) : zeroBits o true i = .ok i := rfl

@[simp] theorem zeroBits_false (o : BitVec 8) (i : Instr) :
    zeroBits o false i = .error (.nonzeroReservedBits o) := rfl

/-- What a format's check accepts. -/
theorem zeroBits_ok {o : BitVec 8} {z : Bool} {i j : Instr} :
    zeroBits o z i = .ok j ↔ z = true ∧ i = j := by cases z <;> simp

end Sys2Proof
end

