-- ==== Sys2Proof/Laws/Memory.lean ====
section
/-! SUPPORT. The laws of the byte buffers: the canonical form is kept by every operation, a read after a write, and what
a block write and a bit flip change. -/

namespace Sys2Proof.Machine

@[simp] theorem Memory.wf_nil : Memory.wf [] = true := rfl

@[simp] theorem Memory.read_nil (i : Nat) : Memory.read [] i = 0 := rfl

/-- A canonical buffer with one more cell in front. -/
theorem Memory.wf_cons_iff (a : Nat) (v : Byte) (rest : Memory) :
    Memory.wf ((a, v) :: rest) = true ↔ v ≠ 0 ∧ (∀ c ∈ rest.head?, a < c.1) ∧ Memory.wf rest = true := by
  cases rest with
  | nil => simp [Memory.wf]
  | cons c cs => obtain ⟨b, w⟩ := c; simp [Memory.wf, and_assoc]

theorem Memory.wf_tail {c : Host.Cell} {rest : Memory} (h : Memory.wf (c :: rest) = true) : Memory.wf rest = true :=
  ((Memory.wf_cons_iff c.1 c.2 rest).1 h).2.2

/-- Below its first cell a buffer reads as unlisted. -/
theorem Memory.read_below (mem : Memory) (i : Nat) (h : ∀ c ∈ mem.head?, i < c.1) : mem.read i = 0 := by
  cases mem with
  | nil => rfl
  | cons c cs =>
    obtain ⟨a, v⟩ := c
    have : i < a := h (a, v) rfl
    simp [Memory.read, this, Nat.ne_of_gt this, Memory.unlisted]

/-- The smallest index after a write is the written one or the smallest before. -/
theorem Memory.head_write (mem : Memory) (i a : Nat) (v : Byte) (h : Memory.wf mem = true)
    (hm : ∀ c ∈ mem.head?, a < c.1) (hi : a < i) : ∀ c ∈ (mem.write i v).head?, a < c.1 := by
  cases mem with
  | nil =>
    simp only [Memory.write, Memory.cons]
    split <;> simp_all
  | cons c cs =>
    obtain ⟨b, u⟩ := c
    have hb : a < b := hm (b, u) rfl
    have htail : ∀ c ∈ cs.head?, a < c.1 := fun c hc =>
      hb.trans (((Memory.wf_cons_iff b u cs).1 h).2.1 c hc)
    simp only [Memory.write, Memory.cons]
    split
    · split <;> simp_all
    · split
      · split
        · exact htail
        · simp_all
      · simp_all

/-- The read of a listed cell, unfolded once. -/
theorem Memory.read_cell (a j : Nat) (v : Byte) (rest : Memory) :
    Memory.read ((a, v) :: rest) j = if a = j then v else if j < a then 0 else Memory.read rest j := rfl

/-- A cell put in front of higher ones keeps the canonical form. -/
theorem Memory.wf_cons (i : Nat) (v : Byte) (mem : Memory) (hm : ∀ c ∈ mem.head?, i < c.1)
    (h : Memory.wf mem = true) : Memory.wf (Memory.cons i v mem) = true := by
  unfold Memory.cons
  split
  · exact h
  · exact (Memory.wf_cons_iff i v mem).2 ⟨‹_›, hm, h⟩

/-- What a cell put in front of higher ones changes. -/
theorem Memory.read_cons (i j : Nat) (v : Byte) (mem : Memory) (hm : ∀ c ∈ mem.head?, i < c.1) :
    Memory.read (Memory.cons i v mem) j = if j = i then v else Memory.read mem j := by
  have hlow : ∀ x, x ≤ i → Memory.read mem x = 0 := fun x hx =>
    Memory.read_below mem x fun c hc => lt_of_le_of_lt hx (hm c hc)
  unfold Memory.cons
  split
  · rename_i hv
    split
    · subst j; rw [hlow i le_rfl, hv]; rfl
    · rfl
  · rw [Memory.read_cell]
    by_cases hj : j = i
    · rw [if_pos hj.symm, if_pos hj]
    · rw [if_neg (Ne.symm hj), if_neg hj]
      split
      · rw [hlow j (by omega)]
      · rfl

/-- Every write keeps the canonical form. -/
theorem Memory.wf_write (mem : Memory) (i : Nat) (v : Byte) (h : Memory.wf mem = true) :
    Memory.wf (mem.write i v) = true := by
  induction mem with
  | nil => exact Memory.wf_cons i v [] (by simp) rfl
  | cons c cs ih =>
    obtain ⟨b, u⟩ := c
    have hcs := (Memory.wf_cons_iff b u cs).1 h
    rw [Memory.write]
    split
    · exact Memory.wf_cons i v _ (by simpa using ‹i < b›) h
    · split
      · subst b; exact Memory.wf_cons i v cs hcs.2.1 hcs.2.2
      · exact (Memory.wf_cons_iff _ _ _).2
          ⟨hcs.1, Memory.head_write cs i b v hcs.2.2 hcs.2.1 (by omega), ih hcs.2.2⟩

/-- A read after a write gives the value written, and every other index reads as before. -/
theorem Memory.read_write (mem : Memory) (i j : Nat) (v : Byte) (h : Memory.wf mem = true) :
    (mem.write i v).read j = if j = i then v else mem.read j := by
  induction mem with
  | nil => exact Memory.read_cons i j v [] (by simp)
  | cons c cs ih =>
    obtain ⟨b, u⟩ := c
    have hcs := (Memory.wf_cons_iff b u cs).1 h
    rw [Memory.write]
    split
    · exact Memory.read_cons i j v _ (by simpa using ‹i < b›)
    · split
      · subst b
        rw [Memory.read_cons i j v cs hcs.2.1, Memory.read_cell]
        by_cases hj : j = i
        · rw [if_pos hj, if_pos hj]
        · rw [if_neg hj, if_neg hj, if_neg (Ne.symm hj)]
          split
          · exact Memory.read_below cs j fun c hc => ‹j < i›.trans (hcs.2.1 c hc)
          · rfl
      · rw [Memory.read_cell, Memory.read_cell, ih hcs.2.2]
        by_cases hj : j = i
        · subst j; rw [if_neg ‹¬b = i›, if_neg ‹¬i < b›, if_pos rfl, if_pos rfl]
        · rw [if_neg hj, if_neg hj]

@[simp] theorem Memory.writeBytes_nil (mem : Memory) (i : Nat) : mem.writeBytes i [] = mem := rfl

@[simp] theorem Memory.writeBytes_cons (mem : Memory) (i : Nat) (b : Byte) (bs : List Byte) :
    mem.writeBytes i (b :: bs) = (mem.write i b).writeBytes (i + 1) bs := rfl

/-- A block write keeps the canonical form. -/
theorem Memory.wf_writeBytes (bs : List Byte) : ∀ (mem : Memory) (i : Nat), Memory.wf mem = true →
    Memory.wf (mem.writeBytes i bs) = true := by
  induction bs with
  | nil => exact fun _ _ h => h
  | cons b bs ih => exact fun mem i h => ih _ _ (Memory.wf_write mem i b h)

/-- A read after a block write: the bytes written where they were written, elsewhere as before. -/
theorem Memory.read_writeBytes (bs : List Byte) : ∀ (mem : Memory) (i j : Nat), Memory.wf mem = true →
    (mem.writeBytes i bs).read j = if i ≤ j ∧ j < i + bs.length then bs.getD (j - i) 0 else mem.read j := by
  induction bs with
  | nil => intro mem i j _; simp
  | cons b bs ih =>
    intro mem i j h
    rw [Memory.writeBytes_cons, ih _ _ _ (Memory.wf_write mem i b h), Memory.read_write mem i j b h]
    by_cases h1 : j = i
    · subst h1; simp
    · by_cases h2 : i + 1 ≤ j ∧ j < i + 1 + bs.length
      · rw [if_pos h2, if_pos ⟨by omega, by simp; omega⟩, show j - i = (j - (i + 1)) + 1 by omega]
        simp
      · rw [if_neg h2, if_neg h1, if_neg (by simp; omega)]

/-- A bit flip keeps the canonical form. -/
theorem Memory.wf_flipBit (mem : Memory) (j : Nat) (h : Memory.wf mem = true) : Memory.wf (mem.flipBit j) = true :=
  Memory.wf_write _ _ _ h

/-- A bit flip changes that one buffer bit (R136). -/
theorem Memory.bit_flipBit (mem : Memory) (j x : Nat) (h : Memory.wf mem = true) :
    (mem.flipBit j).bit x = (mem.bit x ^^ decide (x = j)) := by
  unfold Memory.bit Memory.flipBit
  rw [Memory.read_write _ _ _ _ h]
  have hmask : ∀ a, a < 8 → ∀ b, b < 8 → (0x80#8 >>> a).getMsbD b = decide (b = a) := by decide
  have hx := Nat.mod_lt x (show 8 > 0 by decide)
  have hj := Nat.mod_lt j (show 8 > 0 by decide)
  by_cases hq : x / 8 = j / 8
  · rw [if_pos hq, BitVec.getMsbD_xor, hmask _ hj _ hx, hq]
    congr 1
    rw [decide_eq_decide]
    omega
  · rw [if_neg hq]
    have : x ≠ j := fun e => hq (e ▸ rfl)
    simp [this]

/-- The reset buffers are canonical. -/
theorem State.reset_buffers_wf :
    State.reset.msg.wf = true ∧ State.reset.ecc.wf = true ∧ State.reset.eccs.wf = true := by decide

end Sys2Proof.Machine
end

