-- ==== Sys2Proof/Laws/PerInstr.lean ====
section
/-! SUPPORT. The statement made per instruction: the encoding of a command selects the command's own row of the opcode
map, whatever its operands are (rule R74). One lemma per constructor. -/

namespace Sys2Proof.Laws.EncodingSelectsRow

open Sys2Proof.Machine

/-- The word that encodes `i` selects the row of `i` in R74. -/
def Statement (i : Instr) : Prop := (opcodeRow i).selects (encode i)

/-- Selecting a row, one bit at a time. -/
theorem selects_of_bits {row : OpcodeRow} {w : Word}
    (h : ∀ b, b < 32 → (w.getLsbD b && row.mask.getLsbD b) = row.value.getLsbD b) : row.selects w := by
  apply BitVec.eq_of_getLsbD_eq
  intro b hb
  rw [BitVec.getLsbD_and]
  exact h b hb

theorem nop : Statement .nop := by unfold Statement; decide

theorem clear : Statement .clear := by unfold Statement; decide

theorem wrcsr (csr : BitVec 8) (imm16 : Half) : Statement (.wrcsr csr imm16) := by
  refine selects_of_bits fun b hb => ?_
  have h : (encode (.wrcsr csr imm16)).getLsbD b = (0x02#8 ++ csr ++ imm16).getLsbD b := rfl
  rw [h]
  simp only [BitVec.getLsbD_append]
  interval_cases b <;> simp [opcodeRow]

theorem rdcsr (csr : BitVec 8) : Statement (.rdcsr csr) := by
  refine selects_of_bits fun b hb => ?_
  have h : (encode (.rdcsr csr)).getLsbD b = (0x03#8 ++ csr ++ 0#16).getLsbD b := rfl
  rw [h]
  simp only [BitVec.getLsbD_append]
  interval_cases b <;> simp [opcodeRow]

theorem gfbuild : Statement .gfbuild := by unfold Statement; decide

theorem derive : Statement .derive := by unfold Statement; decide

theorem gfli (rd : GReg) (imm16 : Half) : Statement (.gfli rd imm16) := by
  refine selects_of_bits fun b hb => ?_
  have h : (encode (.gfli rd imm16)).getLsbD b = (0x20#8 ++ rd ++ 0#4 ++ imm16).getLsbD b := rfl
  rw [h]
  simp only [BitVec.getLsbD_append]
  interval_cases b <;> simp [opcodeRow]

theorem gfrd (rs1 : GReg) : Statement (.gfrd rs1) := by
  refine selects_of_bits fun b hb => ?_
  have h : (encode (.gfrd rs1)).getLsbD b = (0x21#8 ++ 0#4 ++ rs1 ++ 0#16).getLsbD b := rfl
  rw [h]
  simp only [BitVec.getLsbD_append]
  interval_cases b <;> simp [opcodeRow]

theorem gfadd (rd rs1 rs2 : GReg) : Statement (.gfadd rd rs1 rs2) := by
  refine selects_of_bits fun b hb => ?_
  have h : (encode (.gfadd rd rs1 rs2)).getLsbD b = (0x22#8 ++ rd ++ rs1 ++ rs2 ++ 0#12).getLsbD b := rfl
  rw [h]
  simp only [BitVec.getLsbD_append]
  interval_cases b <;> simp [opcodeRow]

theorem gfmul (rd rs1 rs2 : GReg) : Statement (.gfmul rd rs1 rs2) := by
  refine selects_of_bits fun b hb => ?_
  have h : (encode (.gfmul rd rs1 rs2)).getLsbD b = (0x23#8 ++ rd ++ rs1 ++ rs2 ++ 0#12).getLsbD b := rfl
  rw [h]
  simp only [BitVec.getLsbD_append]
  interval_cases b <;> simp [opcodeRow]

theorem gfdiv (rd rs1 rs2 : GReg) : Statement (.gfdiv rd rs1 rs2) := by
  refine selects_of_bits fun b hb => ?_
  have h : (encode (.gfdiv rd rs1 rs2)).getLsbD b = (0x24#8 ++ rd ++ rs1 ++ rs2 ++ 0#12).getLsbD b := rfl
  rw [h]
  simp only [BitVec.getLsbD_append]
  interval_cases b <;> simp [opcodeRow]

theorem gflog (rd rs1 : GReg) : Statement (.gflog rd rs1) := by
  refine selects_of_bits fun b hb => ?_
  have h : (encode (.gflog rd rs1)).getLsbD b = (0x25#8 ++ rd ++ rs1 ++ 0#16).getLsbD b := rfl
  rw [h]
  simp only [BitVec.getLsbD_append]
  interval_cases b <;> simp [opcodeRow]

theorem gfalog (rd rs1 : GReg) : Statement (.gfalog rd rs1) := by
  refine selects_of_bits fun b hb => ?_
  have h : (encode (.gfalog rd rs1)).getLsbD b = (0x26#8 ++ rd ++ rs1 ++ 0#16).getLsbD b := rfl
  rw [h]
  simp only [BitVec.getLsbD_append]
  interval_cases b <;> simp [opcodeRow]

theorem stb (space : BitVec 4) (idx12 : BitVec 12) (data8 : Byte) : Statement (.stb space idx12 data8) := by
  refine selects_of_bits fun b hb => ?_
  have h : (encode (.stb space idx12 data8)).getLsbD b = (0x30#8 ++ space ++ idx12 ++ data8).getLsbD b := rfl
  rw [h]
  simp only [BitVec.getLsbD_append]
  interval_cases b <;> simp [opcodeRow]

theorem ld (space : BitVec 4) (idx16 : Half) : Statement (.ld space idx16) := by
  refine selects_of_bits fun b hb => ?_
  have h : (encode (.ld space idx16)).getLsbD b = (0x31#8 ++ space ++ 0#4 ++ idx16).getLsbD b := rfl
  rw [h]
  simp only [BitVec.getLsbD_append]
  interval_cases b <;> simp [opcodeRow]

theorem encode : Statement .encode := by unfold Statement; decide

theorem decode : Statement .decode := by unfold Statement; decide

theorem synd : Statement .synd := by unfold Statement; decide

theorem bmsolve : Statement .bmsolve := by unfold Statement; decide

theorem chien : Statement .chien := by unfold Statement; decide

theorem correct : Statement .correct := by unfold Statement; decide

end Sys2Proof.Laws.EncodingSelectsRow
end

