-- ==== Sys2Proof/Laws/State.lean ====
section
/-! SUPPORT. One lemma per field per update of the state, true by rfl, so that no proof unfolds a record update; and
what the end of a command does. -/

namespace Sys2Proof.Machine

/-! ## The end of a command -/

@[simp] theorem State.report_port (s : State) (c : BitVec 8) (d : Half) : (s.report c d).port = s.port := rfl
@[simp] theorem State.report_cfgstate (s : State) (c : BitVec 8) (d : Half) : (s.report c d).cfgstate = s.cfgstate := rfl
@[simp] theorem State.report_stage (s : State) (c : BitVec 8) (d : Half) : (s.report c d).stage = s.stage := rfl
@[simp] theorem State.report_m (s : State) (c : BitVec 8) (d : Half) : (s.report c d).m = s.m := rfl
@[simp] theorem State.report_poly (s : State) (c : BitVec 8) (d : Half) : (s.report c d).poly = s.poly := rfl
@[simp] theorem State.report_t (s : State) (c : BitVec 8) (d : Half) : (s.report c d).t = s.t := rfl
@[simp] theorem State.report_k (s : State) (c : BitVec 8) (d : Half) : (s.report c d).k = s.k := rfl
@[simp] theorem State.report_n (s : State) (c : BitVec 8) (d : Half) : (s.report c d).n = s.n := rfl
@[simp] theorem State.report_prim (s : State) (c : BitVec 8) (d : Half) : (s.report c d).prim = s.prim := rfl
@[simp] theorem State.report_ebits (s : State) (c : BitVec 8) (d : Half) : (s.report c d).ebits = s.ebits := rfl
@[simp] theorem State.report_ebytes (s : State) (c : BitVec 8) (d : Half) : (s.report c d).ebytes = s.ebytes := rfl
@[simp] theorem State.report_kbytes (s : State) (c : BitVec 8) (d : Half) : (s.report c d).kbytes = s.kbytes := rfl
@[simp] theorem State.report_synz (s : State) (c : BitVec 8) (d : Half) : (s.report c d).synz = s.synz := rfl
@[simp] theorem State.report_nerr (s : State) (c : BitVec 8) (d : Half) : (s.report c d).nerr = s.nerr := rfl
@[simp] theorem State.report_elpdeg (s : State) (c : BitVec 8) (d : Half) : (s.report c d).elpdeg = s.elpdeg := rfl
@[simp] theorem State.report_lasterr (s : State) (c : BitVec 8) (d : Half) : (s.report c d).lasterr = c := rfl
@[simp] theorem State.report_rsp (s : State) (c : BitVec 8) (d : Half) : (s.report c d).rsp = response c d := rfl
@[simp] theorem State.report_g (s : State) (c : BitVec 8) (d : Half) : (s.report c d).g = s.g := rfl
@[simp] theorem State.report_log (s : State) (c : BitVec 8) (d : Half) : (s.report c d).log = s.log := rfl
@[simp] theorem State.report_antilog (s : State) (c : BitVec 8) (d : Half) : (s.report c d).antilog = s.antilog := rfl
@[simp] theorem State.report_gen (s : State) (c : BitVec 8) (d : Half) : (s.report c d).gen = s.gen := rfl
@[simp] theorem State.report_mod8 (s : State) (c : BitVec 8) (d : Half) : (s.report c d).mod8 = s.mod8 := rfl
@[simp] theorem State.report_msg (s : State) (c : BitVec 8) (d : Half) : (s.report c d).msg = s.msg := rfl
@[simp] theorem State.report_ecc (s : State) (c : BitVec 8) (d : Half) : (s.report c d).ecc = s.ecc := rfl
@[simp] theorem State.report_eccs (s : State) (c : BitVec 8) (d : Half) : (s.report c d).eccs = s.eccs := rfl
@[simp] theorem State.report_rem (s : State) (c : BitVec 8) (d : Half) : (s.report c d).rem = s.rem := rfl
@[simp] theorem State.report_syn (s : State) (c : BitVec 8) (d : Half) : (s.report c d).syn = s.syn := rfl
@[simp] theorem State.report_elp (s : State) (c : BitVec 8) (d : Half) : (s.report c d).elp = s.elp := rfl
@[simp] theorem State.report_loc (s : State) (c : BitVec 8) (d : Half) : (s.report c d).loc = s.loc := rfl
@[simp] theorem State.report_bms (s : State) (c : BitVec 8) (d : Half) : (s.report c d).bms = s.bms := rfl

theorem State.respond_eq (s : State) (d : Half) : s.respond d = s.report 0 d := rfl

theorem State.raise_eq (s : State) (e : Err) : s.raise e = s.report e.code 0 := rfl

@[simp] theorem Result.finish_ok (d : Half) (s : State) : (Result.ok d s).finish = .next (s.report 0 d) := rfl

@[simp] theorem Result.finish_err (e : Err) (s : State) : (Result.err e s).finish = .next (s.report e.code 0) := rfl

/-- Every command that ends has a next state (R175). -/
theorem Result.finish_next (r : Result) : ∃ t, r.finish = .next t := by cases r <;> exact ⟨_, rfl⟩

/-- The end of a command, inverted: what the next state is. -/
theorem Result.finish_cases {r : Result} {t : State} (h : r.finish = .next t) :
    (∃ d s, r = .ok d s ∧ t = s.report 0 d) ∨ (∃ e s, r = .err e s ∧ t = s.report e.code 0) := by
  cases r with
  | ok d s => exact .inl ⟨d, s, rfl, by simpa using h.symm⟩
  | err e s => exact .inr ⟨e, s, rfl, by simpa using h.symm⟩

/-! The error codes (R145), read off and read back. -/

@[simp] theorem Err.code_invalidFieldOrder : Err.code .invalidFieldOrder = 1 := rfl
@[simp] theorem Err.code_capacityExceeded : Err.code .capacityExceeded = 2 := rfl
@[simp] theorem Err.code_invalidInputLength : Err.code .invalidInputLength = 3 := rfl
@[simp] theorem Err.code_uncorrectableError : Err.code .uncorrectableError = 4 := rfl
@[simp] theorem Err.code_illegalCommand : Err.code .illegalCommand = 5 := rfl
@[simp] theorem Err.code_badSequence : Err.code .badSequence = 6 := rfl
@[simp] theorem Err.code_gfDivideByZero : Err.code .gfDivideByZero = 7 := rfl
@[simp] theorem Err.code_operandRange : Err.code .operandRange = 8 := rfl

/-- Code 4 is `UncorrectableError` alone (R149). -/
theorem Err.code_eq_four (e : Err) : e.code = 4 ↔ e = .uncorrectableError := by cases e <;> decide

/-- Code 5 is `IllegalCommand` alone (R150). -/
theorem Err.code_eq_five (e : Err) : e.code = 5 ↔ e = .illegalCommand := by cases e <;> decide

/-- Code 6 is `BadSequence` alone (R151). -/
theorem Err.code_eq_six (e : Err) : e.code = 6 ↔ e = .badSequence := by cases e <;> decide

/-- No error has the code of success (R145). -/
@[simp] theorem Err.code_ne_zero (e : Err) : e.code ≠ 0 := by cases e <;> decide

/-- The error codes are distinct (R145). -/
@[simp] theorem Err.code_inj (e f : Err) : e.code = f.code ↔ e = f := by cases e <;> cases f <;> decide

/-- The error codes are 1 to 8 (R145). -/
theorem Err.code_le (e : Err) : e.code.toNat ≤ 8 := by cases e <;> decide

/-! ## A GF register written -/

@[simp] theorem State.setG_port (s : State) (r : GReg) (v : Half) : (s.setG r v).port = s.port := rfl
@[simp] theorem State.setG_cfgstate (s : State) (r : GReg) (v : Half) : (s.setG r v).cfgstate = s.cfgstate := rfl
@[simp] theorem State.setG_stage (s : State) (r : GReg) (v : Half) : (s.setG r v).stage = s.stage := rfl
@[simp] theorem State.setG_m (s : State) (r : GReg) (v : Half) : (s.setG r v).m = s.m := rfl
@[simp] theorem State.setG_poly (s : State) (r : GReg) (v : Half) : (s.setG r v).poly = s.poly := rfl
@[simp] theorem State.setG_t (s : State) (r : GReg) (v : Half) : (s.setG r v).t = s.t := rfl
@[simp] theorem State.setG_k (s : State) (r : GReg) (v : Half) : (s.setG r v).k = s.k := rfl
@[simp] theorem State.setG_n (s : State) (r : GReg) (v : Half) : (s.setG r v).n = s.n := rfl
@[simp] theorem State.setG_prim (s : State) (r : GReg) (v : Half) : (s.setG r v).prim = s.prim := rfl
@[simp] theorem State.setG_ebits (s : State) (r : GReg) (v : Half) : (s.setG r v).ebits = s.ebits := rfl
@[simp] theorem State.setG_ebytes (s : State) (r : GReg) (v : Half) : (s.setG r v).ebytes = s.ebytes := rfl
@[simp] theorem State.setG_kbytes (s : State) (r : GReg) (v : Half) : (s.setG r v).kbytes = s.kbytes := rfl
@[simp] theorem State.setG_synz (s : State) (r : GReg) (v : Half) : (s.setG r v).synz = s.synz := rfl
@[simp] theorem State.setG_nerr (s : State) (r : GReg) (v : Half) : (s.setG r v).nerr = s.nerr := rfl
@[simp] theorem State.setG_elpdeg (s : State) (r : GReg) (v : Half) : (s.setG r v).elpdeg = s.elpdeg := rfl
@[simp] theorem State.setG_lasterr (s : State) (r : GReg) (v : Half) : (s.setG r v).lasterr = s.lasterr := rfl
@[simp] theorem State.setG_rsp (s : State) (r : GReg) (v : Half) : (s.setG r v).rsp = s.rsp := rfl
@[simp] theorem State.setG_g (s : State) (r : GReg) (v : Half) : (s.setG r v).g = s.g.set r.toNat v r.isLt := rfl
@[simp] theorem State.setG_log (s : State) (r : GReg) (v : Half) : (s.setG r v).log = s.log := rfl
@[simp] theorem State.setG_antilog (s : State) (r : GReg) (v : Half) : (s.setG r v).antilog = s.antilog := rfl
@[simp] theorem State.setG_gen (s : State) (r : GReg) (v : Half) : (s.setG r v).gen = s.gen := rfl
@[simp] theorem State.setG_mod8 (s : State) (r : GReg) (v : Half) : (s.setG r v).mod8 = s.mod8 := rfl
@[simp] theorem State.setG_msg (s : State) (r : GReg) (v : Half) : (s.setG r v).msg = s.msg := rfl
@[simp] theorem State.setG_ecc (s : State) (r : GReg) (v : Half) : (s.setG r v).ecc = s.ecc := rfl
@[simp] theorem State.setG_eccs (s : State) (r : GReg) (v : Half) : (s.setG r v).eccs = s.eccs := rfl
@[simp] theorem State.setG_rem (s : State) (r : GReg) (v : Half) : (s.setG r v).rem = s.rem := rfl
@[simp] theorem State.setG_syn (s : State) (r : GReg) (v : Half) : (s.setG r v).syn = s.syn := rfl
@[simp] theorem State.setG_elp (s : State) (r : GReg) (v : Half) : (s.setG r v).elp = s.elp := rfl
@[simp] theorem State.setG_loc (s : State) (r : GReg) (v : Half) : (s.setG r v).loc = s.loc := rfl
@[simp] theorem State.setG_bms (s : State) (r : GReg) (v : Half) : (s.setG r v).bms = s.bms := rfl

/-- What a register write does to each register (R26). -/
@[simp] theorem State.readG_setG (s : State) (r q : GReg) (v : Half) :
    (s.setG r v).readG q = if q = r then v else s.readG q := by
  have h : r.toNat = q.toNat ↔ q = r := by rw [eq_comm (a := q)]; exact BitVec.toNat_inj
  simp [State.readG, Vector.getElem_set, h]

/-! ## STAGE set -/

@[simp] theorem State.setStage_port (s : State) (st : Stage) : (s.setStage st).port = s.port := rfl
@[simp] theorem State.setStage_cfgstate (s : State) (st : Stage) : (s.setStage st).cfgstate = s.cfgstate := rfl
@[simp] theorem State.setStage_stage (s : State) (st : Stage) : (s.setStage st).stage = st := rfl
@[simp] theorem State.setStage_m (s : State) (st : Stage) : (s.setStage st).m = s.m := rfl
@[simp] theorem State.setStage_poly (s : State) (st : Stage) : (s.setStage st).poly = s.poly := rfl
@[simp] theorem State.setStage_t (s : State) (st : Stage) : (s.setStage st).t = s.t := rfl
@[simp] theorem State.setStage_k (s : State) (st : Stage) : (s.setStage st).k = s.k := rfl
@[simp] theorem State.setStage_n (s : State) (st : Stage) : (s.setStage st).n = s.n := rfl
@[simp] theorem State.setStage_prim (s : State) (st : Stage) : (s.setStage st).prim = s.prim := rfl
@[simp] theorem State.setStage_ebits (s : State) (st : Stage) : (s.setStage st).ebits = s.ebits := rfl
@[simp] theorem State.setStage_ebytes (s : State) (st : Stage) : (s.setStage st).ebytes = s.ebytes := rfl
@[simp] theorem State.setStage_kbytes (s : State) (st : Stage) : (s.setStage st).kbytes = s.kbytes := rfl
@[simp] theorem State.setStage_synz (s : State) (st : Stage) : (s.setStage st).synz = s.synz := rfl
@[simp] theorem State.setStage_nerr (s : State) (st : Stage) : (s.setStage st).nerr = s.nerr := rfl
@[simp] theorem State.setStage_elpdeg (s : State) (st : Stage) : (s.setStage st).elpdeg = s.elpdeg := rfl
@[simp] theorem State.setStage_lasterr (s : State) (st : Stage) : (s.setStage st).lasterr = s.lasterr := rfl
@[simp] theorem State.setStage_rsp (s : State) (st : Stage) : (s.setStage st).rsp = s.rsp := rfl
@[simp] theorem State.setStage_g (s : State) (st : Stage) : (s.setStage st).g = s.g := rfl
@[simp] theorem State.setStage_log (s : State) (st : Stage) : (s.setStage st).log = s.log := rfl
@[simp] theorem State.setStage_antilog (s : State) (st : Stage) : (s.setStage st).antilog = s.antilog := rfl
@[simp] theorem State.setStage_gen (s : State) (st : Stage) : (s.setStage st).gen = s.gen := rfl
@[simp] theorem State.setStage_mod8 (s : State) (st : Stage) : (s.setStage st).mod8 = s.mod8 := rfl
@[simp] theorem State.setStage_msg (s : State) (st : Stage) : (s.setStage st).msg = s.msg := rfl
@[simp] theorem State.setStage_ecc (s : State) (st : Stage) : (s.setStage st).ecc = s.ecc := rfl
@[simp] theorem State.setStage_eccs (s : State) (st : Stage) : (s.setStage st).eccs = s.eccs := rfl
@[simp] theorem State.setStage_rem (s : State) (st : Stage) : (s.setStage st).rem = s.rem := rfl
@[simp] theorem State.setStage_syn (s : State) (st : Stage) : (s.setStage st).syn = s.syn := rfl
@[simp] theorem State.setStage_elp (s : State) (st : Stage) : (s.setStage st).elp = s.elp := rfl
@[simp] theorem State.setStage_loc (s : State) (st : Stage) : (s.setStage st).loc = s.loc := rfl
@[simp] theorem State.setStage_bms (s : State) (st : Stage) : (s.setStage st).bms = s.bms := rfl

/-! ## The ECC written -/

@[simp] theorem State.storeEcc_port (s : State) (R : Nat) : (s.storeEcc R).port = s.port := rfl
@[simp] theorem State.storeEcc_cfgstate (s : State) (R : Nat) : (s.storeEcc R).cfgstate = s.cfgstate := rfl
@[simp] theorem State.storeEcc_stage (s : State) (R : Nat) : (s.storeEcc R).stage = s.stage := rfl
@[simp] theorem State.storeEcc_m (s : State) (R : Nat) : (s.storeEcc R).m = s.m := rfl
@[simp] theorem State.storeEcc_poly (s : State) (R : Nat) : (s.storeEcc R).poly = s.poly := rfl
@[simp] theorem State.storeEcc_t (s : State) (R : Nat) : (s.storeEcc R).t = s.t := rfl
@[simp] theorem State.storeEcc_k (s : State) (R : Nat) : (s.storeEcc R).k = s.k := rfl
@[simp] theorem State.storeEcc_n (s : State) (R : Nat) : (s.storeEcc R).n = s.n := rfl
@[simp] theorem State.storeEcc_prim (s : State) (R : Nat) : (s.storeEcc R).prim = s.prim := rfl
@[simp] theorem State.storeEcc_ebits (s : State) (R : Nat) : (s.storeEcc R).ebits = s.ebits := rfl
@[simp] theorem State.storeEcc_ebytes (s : State) (R : Nat) : (s.storeEcc R).ebytes = s.ebytes := rfl
@[simp] theorem State.storeEcc_kbytes (s : State) (R : Nat) : (s.storeEcc R).kbytes = s.kbytes := rfl
@[simp] theorem State.storeEcc_synz (s : State) (R : Nat) : (s.storeEcc R).synz = s.synz := rfl
@[simp] theorem State.storeEcc_nerr (s : State) (R : Nat) : (s.storeEcc R).nerr = s.nerr := rfl
@[simp] theorem State.storeEcc_elpdeg (s : State) (R : Nat) : (s.storeEcc R).elpdeg = s.elpdeg := rfl
@[simp] theorem State.storeEcc_lasterr (s : State) (R : Nat) : (s.storeEcc R).lasterr = s.lasterr := rfl
@[simp] theorem State.storeEcc_rsp (s : State) (R : Nat) : (s.storeEcc R).rsp = s.rsp := rfl
@[simp] theorem State.storeEcc_g (s : State) (R : Nat) : (s.storeEcc R).g = s.g := rfl
@[simp] theorem State.storeEcc_log (s : State) (R : Nat) : (s.storeEcc R).log = s.log := rfl
@[simp] theorem State.storeEcc_antilog (s : State) (R : Nat) : (s.storeEcc R).antilog = s.antilog := rfl
@[simp] theorem State.storeEcc_gen (s : State) (R : Nat) : (s.storeEcc R).gen = s.gen := rfl
@[simp] theorem State.storeEcc_mod8 (s : State) (R : Nat) : (s.storeEcc R).mod8 = s.mod8 := rfl
@[simp] theorem State.storeEcc_msg (s : State) (R : Nat) : (s.storeEcc R).msg = s.msg := rfl
@[simp] theorem State.storeEcc_ecc (s : State) (R : Nat) : (s.storeEcc R).ecc = s.ecc.writeBytes 0 (pack s.ebits.toNat R) := rfl
@[simp] theorem State.storeEcc_eccs (s : State) (R : Nat) : (s.storeEcc R).eccs = s.eccs := rfl
@[simp] theorem State.storeEcc_rem (s : State) (R : Nat) : (s.storeEcc R).rem = s.rem := rfl
@[simp] theorem State.storeEcc_syn (s : State) (R : Nat) : (s.storeEcc R).syn = s.syn := rfl
@[simp] theorem State.storeEcc_elp (s : State) (R : Nat) : (s.storeEcc R).elp = s.elp := rfl
@[simp] theorem State.storeEcc_loc (s : State) (R : Nat) : (s.storeEcc R).loc = s.loc := rfl
@[simp] theorem State.storeEcc_bms (s : State) (R : Nat) : (s.storeEcc R).bms = s.bms := rfl

/-! ## The locator stored -/

@[simp] theorem State.storeLocator_port (s : State) (r : BmVars) : (s.storeLocator r).port = s.port := rfl
@[simp] theorem State.storeLocator_cfgstate (s : State) (r : BmVars) : (s.storeLocator r).cfgstate = s.cfgstate := rfl
@[simp] theorem State.storeLocator_stage (s : State) (r : BmVars) : (s.storeLocator r).stage = s.stage := rfl
@[simp] theorem State.storeLocator_m (s : State) (r : BmVars) : (s.storeLocator r).m = s.m := rfl
@[simp] theorem State.storeLocator_poly (s : State) (r : BmVars) : (s.storeLocator r).poly = s.poly := rfl
@[simp] theorem State.storeLocator_t (s : State) (r : BmVars) : (s.storeLocator r).t = s.t := rfl
@[simp] theorem State.storeLocator_k (s : State) (r : BmVars) : (s.storeLocator r).k = s.k := rfl
@[simp] theorem State.storeLocator_n (s : State) (r : BmVars) : (s.storeLocator r).n = s.n := rfl
@[simp] theorem State.storeLocator_prim (s : State) (r : BmVars) : (s.storeLocator r).prim = s.prim := rfl
@[simp] theorem State.storeLocator_ebits (s : State) (r : BmVars) : (s.storeLocator r).ebits = s.ebits := rfl
@[simp] theorem State.storeLocator_ebytes (s : State) (r : BmVars) : (s.storeLocator r).ebytes = s.ebytes := rfl
@[simp] theorem State.storeLocator_kbytes (s : State) (r : BmVars) : (s.storeLocator r).kbytes = s.kbytes := rfl
@[simp] theorem State.storeLocator_synz (s : State) (r : BmVars) : (s.storeLocator r).synz = s.synz := rfl
@[simp] theorem State.storeLocator_nerr (s : State) (r : BmVars) : (s.storeLocator r).nerr = s.nerr := rfl
@[simp] theorem State.storeLocator_elpdeg (s : State) (r : BmVars) : (s.storeLocator r).elpdeg = BitVec.ofNat 16 r.l := rfl
@[simp] theorem State.storeLocator_lasterr (s : State) (r : BmVars) : (s.storeLocator r).lasterr = s.lasterr := rfl
@[simp] theorem State.storeLocator_rsp (s : State) (r : BmVars) : (s.storeLocator r).rsp = s.rsp := rfl
@[simp] theorem State.storeLocator_g (s : State) (r : BmVars) : (s.storeLocator r).g = s.g := rfl
@[simp] theorem State.storeLocator_log (s : State) (r : BmVars) : (s.storeLocator r).log = s.log := rfl
@[simp] theorem State.storeLocator_antilog (s : State) (r : BmVars) : (s.storeLocator r).antilog = s.antilog := rfl
@[simp] theorem State.storeLocator_gen (s : State) (r : BmVars) : (s.storeLocator r).gen = s.gen := rfl
@[simp] theorem State.storeLocator_mod8 (s : State) (r : BmVars) : (s.storeLocator r).mod8 = s.mod8 := rfl
@[simp] theorem State.storeLocator_msg (s : State) (r : BmVars) : (s.storeLocator r).msg = s.msg := rfl
@[simp] theorem State.storeLocator_ecc (s : State) (r : BmVars) : (s.storeLocator r).ecc = s.ecc := rfl
@[simp] theorem State.storeLocator_eccs (s : State) (r : BmVars) : (s.storeLocator r).eccs = s.eccs := rfl
@[simp] theorem State.storeLocator_rem (s : State) (r : BmVars) : (s.storeLocator r).rem = s.rem := rfl
@[simp] theorem State.storeLocator_syn (s : State) (r : BmVars) : (s.storeLocator r).syn = s.syn := rfl
@[simp] theorem State.storeLocator_elp (s : State) (r : BmVars) : (s.storeLocator r).elp = r.c := rfl
@[simp] theorem State.storeLocator_loc (s : State) (r : BmVars) : (s.storeLocator r).loc = s.loc := rfl
@[simp] theorem State.storeLocator_bms (s : State) (r : BmVars) : (s.storeLocator r).bms = r.scratch := rfl

/-! ## The roots stored -/

@[simp] theorem State.storeRoots_port (s : State) (ps : List Nat) : (s.storeRoots ps).port = s.port := rfl
@[simp] theorem State.storeRoots_cfgstate (s : State) (ps : List Nat) : (s.storeRoots ps).cfgstate = s.cfgstate := rfl
@[simp] theorem State.storeRoots_stage (s : State) (ps : List Nat) : (s.storeRoots ps).stage = s.stage := rfl
@[simp] theorem State.storeRoots_m (s : State) (ps : List Nat) : (s.storeRoots ps).m = s.m := rfl
@[simp] theorem State.storeRoots_poly (s : State) (ps : List Nat) : (s.storeRoots ps).poly = s.poly := rfl
@[simp] theorem State.storeRoots_t (s : State) (ps : List Nat) : (s.storeRoots ps).t = s.t := rfl
@[simp] theorem State.storeRoots_k (s : State) (ps : List Nat) : (s.storeRoots ps).k = s.k := rfl
@[simp] theorem State.storeRoots_n (s : State) (ps : List Nat) : (s.storeRoots ps).n = s.n := rfl
@[simp] theorem State.storeRoots_prim (s : State) (ps : List Nat) : (s.storeRoots ps).prim = s.prim := rfl
@[simp] theorem State.storeRoots_ebits (s : State) (ps : List Nat) : (s.storeRoots ps).ebits = s.ebits := rfl
@[simp] theorem State.storeRoots_ebytes (s : State) (ps : List Nat) : (s.storeRoots ps).ebytes = s.ebytes := rfl
@[simp] theorem State.storeRoots_kbytes (s : State) (ps : List Nat) : (s.storeRoots ps).kbytes = s.kbytes := rfl
@[simp] theorem State.storeRoots_synz (s : State) (ps : List Nat) : (s.storeRoots ps).synz = s.synz := rfl
@[simp] theorem State.storeRoots_nerr (s : State) (ps : List Nat) : (s.storeRoots ps).nerr = BitVec.ofNat 16 ps.length := rfl
@[simp] theorem State.storeRoots_elpdeg (s : State) (ps : List Nat) : (s.storeRoots ps).elpdeg = s.elpdeg := rfl
@[simp] theorem State.storeRoots_lasterr (s : State) (ps : List Nat) : (s.storeRoots ps).lasterr = s.lasterr := rfl
@[simp] theorem State.storeRoots_rsp (s : State) (ps : List Nat) : (s.storeRoots ps).rsp = s.rsp := rfl
@[simp] theorem State.storeRoots_g (s : State) (ps : List Nat) : (s.storeRoots ps).g = s.g := rfl
@[simp] theorem State.storeRoots_log (s : State) (ps : List Nat) : (s.storeRoots ps).log = s.log := rfl
@[simp] theorem State.storeRoots_antilog (s : State) (ps : List Nat) : (s.storeRoots ps).antilog = s.antilog := rfl
@[simp] theorem State.storeRoots_gen (s : State) (ps : List Nat) : (s.storeRoots ps).gen = s.gen := rfl
@[simp] theorem State.storeRoots_mod8 (s : State) (ps : List Nat) : (s.storeRoots ps).mod8 = s.mod8 := rfl
@[simp] theorem State.storeRoots_msg (s : State) (ps : List Nat) : (s.storeRoots ps).msg = s.msg := rfl
@[simp] theorem State.storeRoots_ecc (s : State) (ps : List Nat) : (s.storeRoots ps).ecc = s.ecc := rfl
@[simp] theorem State.storeRoots_eccs (s : State) (ps : List Nat) : (s.storeRoots ps).eccs = s.eccs := rfl
@[simp] theorem State.storeRoots_rem (s : State) (ps : List Nat) : (s.storeRoots ps).rem = s.rem := rfl
@[simp] theorem State.storeRoots_syn (s : State) (ps : List Nat) : (s.storeRoots ps).syn = s.syn := rfl
@[simp] theorem State.storeRoots_elp (s : State) (ps : List Nat) : (s.storeRoots ps).elp = s.elp := rfl
@[simp] theorem State.storeRoots_loc (s : State) (ps : List Nat) : (s.storeRoots ps).loc = locEntries s.t.toNat ps := rfl
@[simp] theorem State.storeRoots_bms (s : State) (ps : List Nat) : (s.storeRoots ps).bms = s.bms := rfl

/-! ## A byte stored in MSG -/

@[simp] theorem State.writeSpace_msg_port (s : State) (i : Nat) (v : Byte) : (s.writeSpace .msg i v).port = s.port := rfl
@[simp] theorem State.writeSpace_msg_cfgstate (s : State) (i : Nat) (v : Byte) : (s.writeSpace .msg i v).cfgstate = s.cfgstate := rfl
@[simp] theorem State.writeSpace_msg_stage (s : State) (i : Nat) (v : Byte) : (s.writeSpace .msg i v).stage = s.stage := rfl
@[simp] theorem State.writeSpace_msg_m (s : State) (i : Nat) (v : Byte) : (s.writeSpace .msg i v).m = s.m := rfl
@[simp] theorem State.writeSpace_msg_poly (s : State) (i : Nat) (v : Byte) : (s.writeSpace .msg i v).poly = s.poly := rfl
@[simp] theorem State.writeSpace_msg_t (s : State) (i : Nat) (v : Byte) : (s.writeSpace .msg i v).t = s.t := rfl
@[simp] theorem State.writeSpace_msg_k (s : State) (i : Nat) (v : Byte) : (s.writeSpace .msg i v).k = s.k := rfl
@[simp] theorem State.writeSpace_msg_n (s : State) (i : Nat) (v : Byte) : (s.writeSpace .msg i v).n = s.n := rfl
@[simp] theorem State.writeSpace_msg_prim (s : State) (i : Nat) (v : Byte) : (s.writeSpace .msg i v).prim = s.prim := rfl
@[simp] theorem State.writeSpace_msg_ebits (s : State) (i : Nat) (v : Byte) : (s.writeSpace .msg i v).ebits = s.ebits := rfl
@[simp] theorem State.writeSpace_msg_ebytes (s : State) (i : Nat) (v : Byte) : (s.writeSpace .msg i v).ebytes = s.ebytes := rfl
@[simp] theorem State.writeSpace_msg_kbytes (s : State) (i : Nat) (v : Byte) : (s.writeSpace .msg i v).kbytes = s.kbytes := rfl
@[simp] theorem State.writeSpace_msg_synz (s : State) (i : Nat) (v : Byte) : (s.writeSpace .msg i v).synz = s.synz := rfl
@[simp] theorem State.writeSpace_msg_nerr (s : State) (i : Nat) (v : Byte) : (s.writeSpace .msg i v).nerr = s.nerr := rfl
@[simp] theorem State.writeSpace_msg_elpdeg (s : State) (i : Nat) (v : Byte) : (s.writeSpace .msg i v).elpdeg = s.elpdeg := rfl
@[simp] theorem State.writeSpace_msg_lasterr (s : State) (i : Nat) (v : Byte) : (s.writeSpace .msg i v).lasterr = s.lasterr := rfl
@[simp] theorem State.writeSpace_msg_rsp (s : State) (i : Nat) (v : Byte) : (s.writeSpace .msg i v).rsp = s.rsp := rfl
@[simp] theorem State.writeSpace_msg_g (s : State) (i : Nat) (v : Byte) : (s.writeSpace .msg i v).g = s.g := rfl
@[simp] theorem State.writeSpace_msg_log (s : State) (i : Nat) (v : Byte) : (s.writeSpace .msg i v).log = s.log := rfl
@[simp] theorem State.writeSpace_msg_antilog (s : State) (i : Nat) (v : Byte) : (s.writeSpace .msg i v).antilog = s.antilog := rfl
@[simp] theorem State.writeSpace_msg_gen (s : State) (i : Nat) (v : Byte) : (s.writeSpace .msg i v).gen = s.gen := rfl
@[simp] theorem State.writeSpace_msg_mod8 (s : State) (i : Nat) (v : Byte) : (s.writeSpace .msg i v).mod8 = s.mod8 := rfl
@[simp] theorem State.writeSpace_msg_msg (s : State) (i : Nat) (v : Byte) : (s.writeSpace .msg i v).msg = s.msg.write i v := rfl
@[simp] theorem State.writeSpace_msg_ecc (s : State) (i : Nat) (v : Byte) : (s.writeSpace .msg i v).ecc = s.ecc := rfl
@[simp] theorem State.writeSpace_msg_eccs (s : State) (i : Nat) (v : Byte) : (s.writeSpace .msg i v).eccs = s.eccs := rfl
@[simp] theorem State.writeSpace_msg_rem (s : State) (i : Nat) (v : Byte) : (s.writeSpace .msg i v).rem = s.rem := rfl
@[simp] theorem State.writeSpace_msg_syn (s : State) (i : Nat) (v : Byte) : (s.writeSpace .msg i v).syn = s.syn := rfl
@[simp] theorem State.writeSpace_msg_elp (s : State) (i : Nat) (v : Byte) : (s.writeSpace .msg i v).elp = s.elp := rfl
@[simp] theorem State.writeSpace_msg_loc (s : State) (i : Nat) (v : Byte) : (s.writeSpace .msg i v).loc = s.loc := rfl
@[simp] theorem State.writeSpace_msg_bms (s : State) (i : Nat) (v : Byte) : (s.writeSpace .msg i v).bms = s.bms := rfl

/-! ## A byte stored in ECC -/

@[simp] theorem State.writeSpace_ecc_port (s : State) (i : Nat) (v : Byte) : (s.writeSpace .ecc i v).port = s.port := rfl
@[simp] theorem State.writeSpace_ecc_cfgstate (s : State) (i : Nat) (v : Byte) : (s.writeSpace .ecc i v).cfgstate = s.cfgstate := rfl
@[simp] theorem State.writeSpace_ecc_stage (s : State) (i : Nat) (v : Byte) : (s.writeSpace .ecc i v).stage = s.stage := rfl
@[simp] theorem State.writeSpace_ecc_m (s : State) (i : Nat) (v : Byte) : (s.writeSpace .ecc i v).m = s.m := rfl
@[simp] theorem State.writeSpace_ecc_poly (s : State) (i : Nat) (v : Byte) : (s.writeSpace .ecc i v).poly = s.poly := rfl
@[simp] theorem State.writeSpace_ecc_t (s : State) (i : Nat) (v : Byte) : (s.writeSpace .ecc i v).t = s.t := rfl
@[simp] theorem State.writeSpace_ecc_k (s : State) (i : Nat) (v : Byte) : (s.writeSpace .ecc i v).k = s.k := rfl
@[simp] theorem State.writeSpace_ecc_n (s : State) (i : Nat) (v : Byte) : (s.writeSpace .ecc i v).n = s.n := rfl
@[simp] theorem State.writeSpace_ecc_prim (s : State) (i : Nat) (v : Byte) : (s.writeSpace .ecc i v).prim = s.prim := rfl
@[simp] theorem State.writeSpace_ecc_ebits (s : State) (i : Nat) (v : Byte) : (s.writeSpace .ecc i v).ebits = s.ebits := rfl
@[simp] theorem State.writeSpace_ecc_ebytes (s : State) (i : Nat) (v : Byte) : (s.writeSpace .ecc i v).ebytes = s.ebytes := rfl
@[simp] theorem State.writeSpace_ecc_kbytes (s : State) (i : Nat) (v : Byte) : (s.writeSpace .ecc i v).kbytes = s.kbytes := rfl
@[simp] theorem State.writeSpace_ecc_synz (s : State) (i : Nat) (v : Byte) : (s.writeSpace .ecc i v).synz = s.synz := rfl
@[simp] theorem State.writeSpace_ecc_nerr (s : State) (i : Nat) (v : Byte) : (s.writeSpace .ecc i v).nerr = s.nerr := rfl
@[simp] theorem State.writeSpace_ecc_elpdeg (s : State) (i : Nat) (v : Byte) : (s.writeSpace .ecc i v).elpdeg = s.elpdeg := rfl
@[simp] theorem State.writeSpace_ecc_lasterr (s : State) (i : Nat) (v : Byte) : (s.writeSpace .ecc i v).lasterr = s.lasterr := rfl
@[simp] theorem State.writeSpace_ecc_rsp (s : State) (i : Nat) (v : Byte) : (s.writeSpace .ecc i v).rsp = s.rsp := rfl
@[simp] theorem State.writeSpace_ecc_g (s : State) (i : Nat) (v : Byte) : (s.writeSpace .ecc i v).g = s.g := rfl
@[simp] theorem State.writeSpace_ecc_log (s : State) (i : Nat) (v : Byte) : (s.writeSpace .ecc i v).log = s.log := rfl
@[simp] theorem State.writeSpace_ecc_antilog (s : State) (i : Nat) (v : Byte) : (s.writeSpace .ecc i v).antilog = s.antilog := rfl
@[simp] theorem State.writeSpace_ecc_gen (s : State) (i : Nat) (v : Byte) : (s.writeSpace .ecc i v).gen = s.gen := rfl
@[simp] theorem State.writeSpace_ecc_mod8 (s : State) (i : Nat) (v : Byte) : (s.writeSpace .ecc i v).mod8 = s.mod8 := rfl
@[simp] theorem State.writeSpace_ecc_msg (s : State) (i : Nat) (v : Byte) : (s.writeSpace .ecc i v).msg = s.msg := rfl
@[simp] theorem State.writeSpace_ecc_ecc (s : State) (i : Nat) (v : Byte) : (s.writeSpace .ecc i v).ecc = s.ecc.write i v := rfl
@[simp] theorem State.writeSpace_ecc_eccs (s : State) (i : Nat) (v : Byte) : (s.writeSpace .ecc i v).eccs = s.eccs := rfl
@[simp] theorem State.writeSpace_ecc_rem (s : State) (i : Nat) (v : Byte) : (s.writeSpace .ecc i v).rem = s.rem := rfl
@[simp] theorem State.writeSpace_ecc_syn (s : State) (i : Nat) (v : Byte) : (s.writeSpace .ecc i v).syn = s.syn := rfl
@[simp] theorem State.writeSpace_ecc_elp (s : State) (i : Nat) (v : Byte) : (s.writeSpace .ecc i v).elp = s.elp := rfl
@[simp] theorem State.writeSpace_ecc_loc (s : State) (i : Nat) (v : Byte) : (s.writeSpace .ecc i v).loc = s.loc := rfl
@[simp] theorem State.writeSpace_ecc_bms (s : State) (i : Nat) (v : Byte) : (s.writeSpace .ecc i v).bms = s.bms := rfl

/-! ## The reset value everywhere but on the port -/

@[simp] theorem State.clear_port (s : State) : (s.clear).port = s.port := rfl
@[simp] theorem State.clear_cfgstate (s : State) : (s.clear).cfgstate = State.reset.cfgstate := rfl
@[simp] theorem State.clear_stage (s : State) : (s.clear).stage = State.reset.stage := rfl
@[simp] theorem State.clear_m (s : State) : (s.clear).m = State.reset.m := rfl
@[simp] theorem State.clear_poly (s : State) : (s.clear).poly = State.reset.poly := rfl
@[simp] theorem State.clear_t (s : State) : (s.clear).t = State.reset.t := rfl
@[simp] theorem State.clear_k (s : State) : (s.clear).k = State.reset.k := rfl
@[simp] theorem State.clear_n (s : State) : (s.clear).n = State.reset.n := rfl
@[simp] theorem State.clear_prim (s : State) : (s.clear).prim = State.reset.prim := rfl
@[simp] theorem State.clear_ebits (s : State) : (s.clear).ebits = State.reset.ebits := rfl
@[simp] theorem State.clear_ebytes (s : State) : (s.clear).ebytes = State.reset.ebytes := rfl
@[simp] theorem State.clear_kbytes (s : State) : (s.clear).kbytes = State.reset.kbytes := rfl
@[simp] theorem State.clear_synz (s : State) : (s.clear).synz = State.reset.synz := rfl
@[simp] theorem State.clear_nerr (s : State) : (s.clear).nerr = State.reset.nerr := rfl
@[simp] theorem State.clear_elpdeg (s : State) : (s.clear).elpdeg = State.reset.elpdeg := rfl
@[simp] theorem State.clear_lasterr (s : State) : (s.clear).lasterr = State.reset.lasterr := rfl
@[simp] theorem State.clear_rsp (s : State) : (s.clear).rsp = State.reset.rsp := rfl
@[simp] theorem State.clear_g (s : State) : (s.clear).g = State.reset.g := rfl
@[simp] theorem State.clear_log (s : State) : (s.clear).log = State.reset.log := rfl
@[simp] theorem State.clear_antilog (s : State) : (s.clear).antilog = State.reset.antilog := rfl
@[simp] theorem State.clear_gen (s : State) : (s.clear).gen = State.reset.gen := rfl
@[simp] theorem State.clear_mod8 (s : State) : (s.clear).mod8 = State.reset.mod8 := rfl
@[simp] theorem State.clear_msg (s : State) : (s.clear).msg = State.reset.msg := rfl
@[simp] theorem State.clear_ecc (s : State) : (s.clear).ecc = State.reset.ecc := rfl
@[simp] theorem State.clear_eccs (s : State) : (s.clear).eccs = State.reset.eccs := rfl
@[simp] theorem State.clear_rem (s : State) : (s.clear).rem = State.reset.rem := rfl
@[simp] theorem State.clear_syn (s : State) : (s.clear).syn = State.reset.syn := rfl
@[simp] theorem State.clear_elp (s : State) : (s.clear).elp = State.reset.elp := rfl
@[simp] theorem State.clear_loc (s : State) : (s.clear).loc = State.reset.loc := rfl
@[simp] theorem State.clear_bms (s : State) : (s.clear).bms = State.reset.bms := rfl

/-! ## The commit of GFBUILD -/

@[simp] theorem State.commitField_port (s : State) (P : Nat) (a l : Array Half) : (s.commitField P a l).port = s.port := rfl
@[simp] theorem State.commitField_cfgstate (s : State) (P : Nat) (a l : Array Half) : (s.commitField P a l).cfgstate = .field := rfl
@[simp] theorem State.commitField_stage (s : State) (P : Nat) (a l : Array Half) : (s.commitField P a l).stage = s.stage := rfl
@[simp] theorem State.commitField_m (s : State) (P : Nat) (a l : Array Half) : (s.commitField P a l).m = s.m := rfl
@[simp] theorem State.commitField_poly (s : State) (P : Nat) (a l : Array Half) : (s.commitField P a l).poly = s.poly := rfl
@[simp] theorem State.commitField_t (s : State) (P : Nat) (a l : Array Half) : (s.commitField P a l).t = s.t := rfl
@[simp] theorem State.commitField_k (s : State) (P : Nat) (a l : Array Half) : (s.commitField P a l).k = s.k := rfl
@[simp] theorem State.commitField_n (s : State) (P : Nat) (a l : Array Half) : (s.commitField P a l).n = BitVec.ofNat 16 (2 ^ s.m.toNat - 1) := rfl
@[simp] theorem State.commitField_prim (s : State) (P : Nat) (a l : Array Half) : (s.commitField P a l).prim = BitVec.ofNat 16 P := rfl
@[simp] theorem State.commitField_ebits (s : State) (P : Nat) (a l : Array Half) : (s.commitField P a l).ebits = s.ebits := rfl
@[simp] theorem State.commitField_ebytes (s : State) (P : Nat) (a l : Array Half) : (s.commitField P a l).ebytes = s.ebytes := rfl
@[simp] theorem State.commitField_kbytes (s : State) (P : Nat) (a l : Array Half) : (s.commitField P a l).kbytes = s.kbytes := rfl
@[simp] theorem State.commitField_synz (s : State) (P : Nat) (a l : Array Half) : (s.commitField P a l).synz = s.synz := rfl
@[simp] theorem State.commitField_nerr (s : State) (P : Nat) (a l : Array Half) : (s.commitField P a l).nerr = s.nerr := rfl
@[simp] theorem State.commitField_elpdeg (s : State) (P : Nat) (a l : Array Half) : (s.commitField P a l).elpdeg = s.elpdeg := rfl
@[simp] theorem State.commitField_lasterr (s : State) (P : Nat) (a l : Array Half) : (s.commitField P a l).lasterr = s.lasterr := rfl
@[simp] theorem State.commitField_rsp (s : State) (P : Nat) (a l : Array Half) : (s.commitField P a l).rsp = s.rsp := rfl
@[simp] theorem State.commitField_g (s : State) (P : Nat) (a l : Array Half) : (s.commitField P a l).g = Vector.replicate 16 0 := rfl
@[simp] theorem State.commitField_log (s : State) (P : Nat) (a l : Array Half) : (s.commitField P a l).log = l := rfl
@[simp] theorem State.commitField_antilog (s : State) (P : Nat) (a l : Array Half) : (s.commitField P a l).antilog = a := rfl
@[simp] theorem State.commitField_gen (s : State) (P : Nat) (a l : Array Half) : (s.commitField P a l).gen = s.gen := rfl
@[simp] theorem State.commitField_mod8 (s : State) (P : Nat) (a l : Array Half) : (s.commitField P a l).mod8 = s.mod8 := rfl
@[simp] theorem State.commitField_msg (s : State) (P : Nat) (a l : Array Half) : (s.commitField P a l).msg = s.msg := rfl
@[simp] theorem State.commitField_ecc (s : State) (P : Nat) (a l : Array Half) : (s.commitField P a l).ecc = s.ecc := rfl
@[simp] theorem State.commitField_eccs (s : State) (P : Nat) (a l : Array Half) : (s.commitField P a l).eccs = s.eccs := rfl
@[simp] theorem State.commitField_rem (s : State) (P : Nat) (a l : Array Half) : (s.commitField P a l).rem = s.rem := rfl
@[simp] theorem State.commitField_syn (s : State) (P : Nat) (a l : Array Half) : (s.commitField P a l).syn = s.syn := rfl
@[simp] theorem State.commitField_elp (s : State) (P : Nat) (a l : Array Half) : (s.commitField P a l).elp = s.elp := rfl
@[simp] theorem State.commitField_loc (s : State) (P : Nat) (a l : Array Half) : (s.commitField P a l).loc = s.loc := rfl
@[simp] theorem State.commitField_bms (s : State) (P : Nat) (a l : Array Half) : (s.commitField P a l).bms = s.bms := rfl

/-! ## The commit of DERIVE -/

@[simp] theorem State.commitCode_port (s : State) (g : Nat) : (s.commitCode g).port = s.port := rfl
@[simp] theorem State.commitCode_cfgstate (s : State) (g : Nat) : (s.commitCode g).cfgstate = .code := rfl
@[simp] theorem State.commitCode_stage (s : State) (g : Nat) : (s.commitCode g).stage = .idle := rfl
@[simp] theorem State.commitCode_m (s : State) (g : Nat) : (s.commitCode g).m = s.m := rfl
@[simp] theorem State.commitCode_poly (s : State) (g : Nat) : (s.commitCode g).poly = s.poly := rfl
@[simp] theorem State.commitCode_t (s : State) (g : Nat) : (s.commitCode g).t = s.t := rfl
@[simp] theorem State.commitCode_k (s : State) (g : Nat) : (s.commitCode g).k = s.k := rfl
@[simp] theorem State.commitCode_n (s : State) (g : Nat) : (s.commitCode g).n = s.n := rfl
@[simp] theorem State.commitCode_prim (s : State) (g : Nat) : (s.commitCode g).prim = s.prim := rfl
@[simp] theorem State.commitCode_ebits (s : State) (g : Nat) : (s.commitCode g).ebits = BitVec.ofNat 16 g.log2 := rfl
@[simp] theorem State.commitCode_ebytes (s : State) (g : Nat) : (s.commitCode g).ebytes = BitVec.ofNat 16 ((g.log2 + 7) / 8) := rfl
@[simp] theorem State.commitCode_kbytes (s : State) (g : Nat) : (s.commitCode g).kbytes = BitVec.ofNat 16 ((s.k.toNat + 7) / 8) := rfl
@[simp] theorem State.commitCode_synz (s : State) (g : Nat) : (s.commitCode g).synz = false := rfl
@[simp] theorem State.commitCode_nerr (s : State) (g : Nat) : (s.commitCode g).nerr = 0 := rfl
@[simp] theorem State.commitCode_elpdeg (s : State) (g : Nat) : (s.commitCode g).elpdeg = 0 := rfl
@[simp] theorem State.commitCode_lasterr (s : State) (g : Nat) : (s.commitCode g).lasterr = s.lasterr := rfl
@[simp] theorem State.commitCode_rsp (s : State) (g : Nat) : (s.commitCode g).rsp = s.rsp := rfl
@[simp] theorem State.commitCode_g (s : State) (g : Nat) : (s.commitCode g).g = s.g := rfl
@[simp] theorem State.commitCode_log (s : State) (g : Nat) : (s.commitCode g).log = s.log := rfl
@[simp] theorem State.commitCode_antilog (s : State) (g : Nat) : (s.commitCode g).antilog = s.antilog := rfl
@[simp] theorem State.commitCode_gen (s : State) (g : Nat) : (s.commitCode g).gen = g := rfl
@[simp] theorem State.commitCode_mod8 (s : State) (g : Nat) : (s.commitCode g).mod8 = mod8Table g g.log2 := rfl
@[simp] theorem State.commitCode_msg (s : State) (g : Nat) : (s.commitCode g).msg = [] := rfl
@[simp] theorem State.commitCode_ecc (s : State) (g : Nat) : (s.commitCode g).ecc = [] := rfl
@[simp] theorem State.commitCode_eccs (s : State) (g : Nat) : (s.commitCode g).eccs = [] := rfl
@[simp] theorem State.commitCode_rem (s : State) (g : Nat) : (s.commitCode g).rem = s.rem := rfl
@[simp] theorem State.commitCode_syn (s : State) (g : Nat) : (s.commitCode g).syn = List.replicate (2 * s.t.toNat) 0 := rfl
@[simp] theorem State.commitCode_elp (s : State) (g : Nat) : (s.commitCode g).elp = 1 :: List.replicate (2 * s.t.toNat) 0 := rfl
@[simp] theorem State.commitCode_loc (s : State) (g : Nat) : (s.commitCode g).loc = List.replicate s.t.toNat 0 := rfl
@[simp] theorem State.commitCode_bms (s : State) (g : Nat) : (s.commitCode g).bms = s.bms := rfl

/-! ## The body of SYND -/

@[simp] theorem syndBody_port (s : State) : (syndBody s).port = s.port := rfl
@[simp] theorem syndBody_cfgstate (s : State) : (syndBody s).cfgstate = s.cfgstate := rfl
@[simp] theorem syndBody_stage (s : State) : (syndBody s).stage = .synd := rfl
@[simp] theorem syndBody_m (s : State) : (syndBody s).m = s.m := rfl
@[simp] theorem syndBody_poly (s : State) : (syndBody s).poly = s.poly := rfl
@[simp] theorem syndBody_t (s : State) : (syndBody s).t = s.t := rfl
@[simp] theorem syndBody_k (s : State) : (syndBody s).k = s.k := rfl
@[simp] theorem syndBody_n (s : State) : (syndBody s).n = s.n := rfl
@[simp] theorem syndBody_prim (s : State) : (syndBody s).prim = s.prim := rfl
@[simp] theorem syndBody_ebits (s : State) : (syndBody s).ebits = s.ebits := rfl
@[simp] theorem syndBody_ebytes (s : State) : (syndBody s).ebytes = s.ebytes := rfl
@[simp] theorem syndBody_kbytes (s : State) : (syndBody s).kbytes = s.kbytes := rfl
@[simp] theorem syndBody_synz (s : State) : (syndBody s).synz = allZero (syndromes s.tables s.ebits.toNat s.t.toNat s.receivedRem) := rfl
@[simp] theorem syndBody_nerr (s : State) : (syndBody s).nerr = 0 := rfl
@[simp] theorem syndBody_elpdeg (s : State) : (syndBody s).elpdeg = 0 := rfl
@[simp] theorem syndBody_lasterr (s : State) : (syndBody s).lasterr = s.lasterr := rfl
@[simp] theorem syndBody_rsp (s : State) : (syndBody s).rsp = s.rsp := rfl
@[simp] theorem syndBody_g (s : State) : (syndBody s).g = s.g := rfl
@[simp] theorem syndBody_log (s : State) : (syndBody s).log = s.log := rfl
@[simp] theorem syndBody_antilog (s : State) : (syndBody s).antilog = s.antilog := rfl
@[simp] theorem syndBody_gen (s : State) : (syndBody s).gen = s.gen := rfl
@[simp] theorem syndBody_mod8 (s : State) : (syndBody s).mod8 = s.mod8 := rfl
@[simp] theorem syndBody_msg (s : State) : (syndBody s).msg = s.msg := rfl
@[simp] theorem syndBody_ecc (s : State) : (syndBody s).ecc = s.ecc := rfl
@[simp] theorem syndBody_eccs (s : State) : (syndBody s).eccs = s.eccs.writeBytes 0 (pack s.ebits.toNat (unpack s.ebits.toNat s.ecc)) := rfl
@[simp] theorem syndBody_rem (s : State) : (syndBody s).rem = s.receivedRem := rfl
@[simp] theorem syndBody_syn (s : State) : (syndBody s).syn = syndromes s.tables s.ebits.toNat s.t.toNat s.receivedRem := rfl
@[simp] theorem syndBody_elp (s : State) : (syndBody s).elp = 1 :: List.replicate (2 * s.t.toNat) 0 := rfl
@[simp] theorem syndBody_loc (s : State) : (syndBody s).loc = s.loc := rfl
@[simp] theorem syndBody_bms (s : State) : (syndBody s).bms = s.bms := rfl

/-! ## The body of CORRECT -/

@[simp] theorem correctBody_port (s : State) : (correctBody s).port = s.port := rfl
@[simp] theorem correctBody_cfgstate (s : State) : (correctBody s).cfgstate = s.cfgstate := rfl
@[simp] theorem correctBody_stage (s : State) : (correctBody s).stage = .done := rfl
@[simp] theorem correctBody_m (s : State) : (correctBody s).m = s.m := rfl
@[simp] theorem correctBody_poly (s : State) : (correctBody s).poly = s.poly := rfl
@[simp] theorem correctBody_t (s : State) : (correctBody s).t = s.t := rfl
@[simp] theorem correctBody_k (s : State) : (correctBody s).k = s.k := rfl
@[simp] theorem correctBody_n (s : State) : (correctBody s).n = s.n := rfl
@[simp] theorem correctBody_prim (s : State) : (correctBody s).prim = s.prim := rfl
@[simp] theorem correctBody_ebits (s : State) : (correctBody s).ebits = s.ebits := rfl
@[simp] theorem correctBody_ebytes (s : State) : (correctBody s).ebytes = s.ebytes := rfl
@[simp] theorem correctBody_kbytes (s : State) : (correctBody s).kbytes = s.kbytes := rfl
@[simp] theorem correctBody_synz (s : State) : (correctBody s).synz = s.synz := rfl
@[simp] theorem correctBody_nerr (s : State) : (correctBody s).nerr = s.nerr := rfl
@[simp] theorem correctBody_elpdeg (s : State) : (correctBody s).elpdeg = s.elpdeg := rfl
@[simp] theorem correctBody_lasterr (s : State) : (correctBody s).lasterr = s.lasterr := rfl
@[simp] theorem correctBody_rsp (s : State) : (correctBody s).rsp = s.rsp := rfl
@[simp] theorem correctBody_g (s : State) : (correctBody s).g = s.g := rfl
@[simp] theorem correctBody_log (s : State) : (correctBody s).log = s.log := rfl
@[simp] theorem correctBody_antilog (s : State) : (correctBody s).antilog = s.antilog := rfl
@[simp] theorem correctBody_gen (s : State) : (correctBody s).gen = s.gen := rfl
@[simp] theorem correctBody_mod8 (s : State) : (correctBody s).mod8 = s.mod8 := rfl
@[simp] theorem correctBody_msg (s : State) : (correctBody s).msg = s.corrected.1 := rfl
@[simp] theorem correctBody_ecc (s : State) : (correctBody s).ecc = s.ecc := rfl
@[simp] theorem correctBody_eccs (s : State) : (correctBody s).eccs = s.corrected.2 := rfl
@[simp] theorem correctBody_rem (s : State) : (correctBody s).rem = s.rem := rfl
@[simp] theorem correctBody_syn (s : State) : (correctBody s).syn = s.syn := rfl
@[simp] theorem correctBody_elp (s : State) : (correctBody s).elp = s.elp := rfl
@[simp] theorem correctBody_loc (s : State) : (correctBody s).loc = s.loc := rfl
@[simp] theorem correctBody_bms (s : State) : (correctBody s).bms = s.bms := rfl

/-! ## The shared operations, said once -/

/-- Steps 2 to 4 of R81 for each command: what its meaning does before the response is written. -/
def commandBody (i : Instr) (s : State) : Result :=
  match i with
  | .nop => .ok 0 s
  | .clear => .ok 0 s.clear
  | .wrcsr csr imm16 => wrcsrBody csr imm16 s
  | .rdcsr csr => rdcsrBody csr s
  | .gfbuild => gfbuildBody s
  | .derive => deriveBody s
  | .gfli rd imm16 => gfliBody rd imm16 s
  | .gfrd rs1 => gfrdBody rs1 s
  | .gfadd rd rs1 rs2 => s.gfWrite rd [s.readG rs1, s.readG rs2] (gfAdd (s.readG rs1) (s.readG rs2))
  | .gfmul rd rs1 rs2 => s.gfWrite rd [s.readG rs1, s.readG rs2] (s.tables.mul (s.readG rs1) (s.readG rs2))
  | .gfdiv rd rs1 rs2 => gfdivBody rd rs1 rs2 s
  | .gflog rd rs1 => s.gfWrite rd [s.readG rs1] (s.tables.logAt (s.readG rs1).toNat)
  | .gfalog rd rs1 => s.gfWrite rd [s.readG rs1] (s.tables.antilogAt (s.readG rs1).toNat)
  | .stb space idx12 data8 => stbBody space idx12 data8 s
  | .ld space idx16 => ldBody space idx16 s
  | .encode => encodeBody s
  | .decode => s.inCode none (decodeBody s)
  | .synd => s.inCode none (.ok (syndBody s).flags (syndBody s))
  | .bmsolve => s.inCode (some .synd) (bmsolveBody s)
  | .chien => s.inCode (some .locator) (chienBody s)
  | .correct => s.inCode (some .roots) (.ok s.nerr (correctBody s))

/-- Every command is its body and then the one shared end (R81). -/
theorem exec_eq (i : Instr) (s : State) : exec i s = (commandBody i s).finish := by cases i <;> rfl

/-- What a decoder command's preconditions let through (R151). -/
theorem State.inCode_eq (s : State) (required : Option Stage) (body : Result) :
    s.inCode required body =
      if s.cfgstate = .code ∧ (∀ st, required = some st → s.stage = st) then body else .err .badSequence s := by
  unfold State.inCode
  cases required with
  | none => by_cases h : s.cfgstate = .code <;> simp [h]
  | some st => by_cases h : s.cfgstate = .code <;> by_cases h' : s.stage = st <;> simp [h, h']

/-- What a GF register write command does (R100, R26). -/
theorem State.gfWrite_eq (s : State) (rd : GReg) (vs : List Half) (v : Half) :
    s.gfWrite rd vs v = match s.gfCheck vs with | some e => .err e s | none => .ok v (s.setG rd v) := rfl

/-- What the checks of R100 answer. -/
theorem State.gfCheck_none (s : State) (vs : List Half) :
    s.gfCheck vs = none ↔ s.cfgstate ≠ .empty ∧ ∀ v ∈ vs, v.toNat ≤ s.n.toNat := by
  unfold State.gfCheck
  split
  · simp_all
  · simp only [ne_eq, ‹¬s.cfgstate = .empty›, not_false_eq_true, true_and]
    split <;> simp_all

/-- The only errors of those checks, and when each comes (R100, R154). -/
theorem State.gfCheck_some (s : State) (vs : List Half) (e : Err) :
    s.gfCheck vs = some e ↔
      (s.cfgstate = .empty ∧ e = .badSequence) ∨
        (s.cfgstate ≠ .empty ∧ (∃ v ∈ vs, s.n.toNat < v.toNat) ∧ e = .operandRange) := by
  unfold State.gfCheck
  by_cases he : s.cfgstate = .empty
  · simp [he, eq_comm]
  · by_cases ha : ∃ v ∈ vs, s.n.toNat < v.toNat
    · have : (vs.any fun v => decide (s.n.toNat < v.toNat)) = true := by simpa using ha
      rw [if_neg he, if_pos this]
      simp only [he, ha, ne_eq, not_false_eq_true, true_and, false_and, false_or, Option.some.injEq]
      exact eq_comm
    · have : (vs.any fun v => decide (s.n.toNat < v.toNat)) = false := by simpa using ha
      rw [if_neg he, this]
      simp [he, ha]

/-- What `BMSOLVE`'s body can do: it stores the locator and sets `STAGE` (R132). -/
theorem bmsolveBody_cases (s : State) :
    (s.solve.l ≤ s.t.toNat ∧
      bmsolveBody s = .ok (BitVec.ofNat 16 s.solve.l) ((s.storeLocator s.solve).setStage .locator)) ∨
    (s.t.toNat < s.solve.l ∧
      bmsolveBody s = .err .uncorrectableError ((s.storeLocator s.solve).setStage .failed)) := by
  unfold bmsolveBody
  by_cases h : s.solve.l > s.t.toNat
  · exact .inr ⟨h, if_pos h⟩
  · exact .inl ⟨by omega, if_neg h⟩

/-- What `CHIEN`'s body can do: it stores the positions found and sets `STAGE` (R134). -/
theorem chienBody_cases (s : State) :
    (s.search.length = s.elpdeg.toNat ∧
      chienBody s = .ok (BitVec.ofNat 16 s.search.length) ((s.storeRoots s.search).setStage .roots)) ∨
    (s.search.length ≠ s.elpdeg.toNat ∧
      chienBody s = .err .uncorrectableError ((s.storeRoots s.search).setStage .failed)) := by
  unfold chienBody
  by_cases h : s.search.length ≠ s.elpdeg.toNat
  · exact .inr ⟨h, if_pos h⟩
  · exact .inl ⟨not_not.1 h, if_neg h⟩

/-- The locator `DECODE` works with after its second stage. -/
def State.decodeLocator (s : State) : State :=
  ((syndBody s).storeLocator (syndBody s).solve).setStage .locator

/-- The roots `DECODE` works with after its third stage. -/
def State.decodeRoots (s : State) : State :=
  (s.decodeLocator.storeRoots s.decodeLocator.search).setStage .roots

/-- What `DECODE`'s body can do: the four ways R138 can end. -/
theorem decodeBody_cases (s : State) :
    ((syndBody s).synz = true ∧ decodeBody s = .ok 0 ((syndBody s).setStage .done)) ∨
    ((syndBody s).synz = false ∧ s.t.toNat < (syndBody s).solve.l ∧
      decodeBody s =
        .err .uncorrectableError (((syndBody s).storeLocator (syndBody s).solve).setStage .failed)) ∨
    ((syndBody s).synz = false ∧ (syndBody s).solve.l ≤ s.t.toNat ∧
      s.decodeLocator.search.length ≠ s.decodeLocator.elpdeg.toNat ∧
      decodeBody s =
        .err .uncorrectableError ((s.decodeLocator.storeRoots s.decodeLocator.search).setStage .failed)) ∨
    ((syndBody s).synz = false ∧ (syndBody s).solve.l ≤ s.t.toNat ∧
      s.decodeLocator.search.length = s.decodeLocator.elpdeg.toNat ∧
      decodeBody s = .ok s.decodeRoots.nerr (correctBody s.decodeRoots)) := by
  unfold decodeBody
  by_cases h : (syndBody s).synz = true
  · exact .inl ⟨h, if_pos h⟩
  · rw [if_neg h]
    have h' : (syndBody s).synz = false := by simpa using h
    rcases bmsolveBody_cases (syndBody s) with ⟨hl, h1⟩ | ⟨hl, h1⟩
    · rw [h1]
      rcases chienBody_cases s.decodeLocator with ⟨hn, h2⟩ | ⟨hn, h2⟩
      · exact .inr (.inr (.inr ⟨h', hl, hn, by
          show (match chienBody s.decodeLocator with | .err e s3 => _ | .ok _ s3 => _) = _
          rw [h2]; rfl⟩))
      · exact .inr (.inr (.inl ⟨h', hl, hn, by
          show (match chienBody s.decodeLocator with | .err e s3 => _ | .ok _ s3 => _) = _
          rw [h2]⟩))
    · exact .inr (.inl ⟨h', hl, by rw [h1]⟩)

end Sys2Proof.Machine
end

