-- ==== Sys2Proof/Tests/Slice0.lean ====
section
/-! SUPPORT. Our own tests. Decode words are written out from the formats of `30_encoding.md` (rules R64 to R74);
expected results are those of `95_test_vectors.md` (programs P1 to P5) and of the examples of the rules. The theorems named
`witness_` show, for each statement with hypotheses, concrete operands that meet them. -/

namespace Sys2Proof.Tests

-- one kernel check at a time: each waiting check holds a thread stack
set_option Elab.async false

open Sys2Proof Sys2Proof.Machine

/-! ## Well-formedness: each check refuses something -/

theorem test_wf_wrcsr_read_only : WellFormed (.wrcsr 0x04 0) = false := by decide
theorem test_wf_wrcsr_reserved : WellFormed (.wrcsr 0x0F 0) = false := by decide
theorem test_wf_wrcsr_last : WellFormed (.wrcsr 0x03 0) = true := by decide
theorem test_wf_rdcsr_reserved : WellFormed (.rdcsr 0x0F) = false := by decide
theorem test_wf_rdcsr_last : WellFormed (.rdcsr 0x0E) = true := by decide
theorem test_wf_stb_read_only : WellFormed (.stb 2 0 0) = false := by decide
theorem test_wf_stb_last : WellFormed (.stb 1 0 0) = true := by decide
theorem test_wf_ld_reserved : WellFormed (.ld 9 0) = false := by decide
theorem test_wf_ld_last : WellFormed (.ld 8 0) = true := by decide

/-! ## Decoding: a word for every row of R74, bit by bit for one word of each format, and words of no row -/

-- format Z (R64): opcode, twenty-four zeros
theorem test_decode_nop : decode 0b00000000_0000_0000_0000_0000_0000_0000 = .ok .nop := by decide
theorem test_decode_clear : decode 0x01000000 = .ok .clear := by decide
theorem test_decode_gfbuild : decode 0x10000000 = .ok .gfbuild := by decide
theorem test_decode_derive : decode 0x11000000 = .ok .derive := by decide
theorem test_decode_encode : decode 0x40000000 = .ok .encode := by decide
theorem test_decode_decode : decode 0x41000000 = .ok .decode := by decide
theorem test_decode_synd : decode 0x42000000 = .ok .synd := by decide
theorem test_decode_bmsolve : decode 0x43000000 = .ok .bmsolve := by decide
theorem test_decode_chien : decode 0x44000000 = .ok .chien := by decide
theorem test_decode_correct : decode 0b01000101_0000_0000_0000_0000_0000_0000 = .ok .correct := by decide
-- format C (R65): WRCSR K, 3488
theorem test_decode_wrcsr : decode 0b00000010_00000011_0000110110100000 = .ok (.wrcsr 0x03 3488) := by decide
-- format CR (R66): RDCSR PRIM
theorem test_decode_rdcsr : decode 0b00000011_00001110_0000000000000000 = .ok (.rdcsr 0x0E) := by decide
-- format I (R67): GFLI G4, 0xB
theorem test_decode_gfli : decode 0b00100000_0100_0000_0000000000001011 = .ok (.gfli 4 0xB) := by decide
-- format R1 (R68): GFRD G12
theorem test_decode_gfrd : decode 0b00100001_0000_1100_0000000000000000 = .ok (.gfrd 12) := by decide
-- format R3 (R70): GFADD G7, G1, G2; GFMUL G5, G4, G2; GFDIV G6, G5, G2
theorem test_decode_gfadd : decode 0x22712000 = .ok (.gfadd 7 1 2) := by decide
theorem test_decode_gfmul : decode 0b00100011_0101_0100_0010_000000000000 = .ok (.gfmul 5 4 2) := by decide
theorem test_decode_gfdiv : decode 0x24652000 = .ok (.gfdiv 6 5 2) := by decide
-- format R2 (R69): GFLOG G10, G0; GFALOG G9, G8
theorem test_decode_gflog : decode 0x25A00000 = .ok (.gflog 10 0) := by decide
theorem test_decode_gfalog : decode 0b00100110_1001_1000_0000000000000000 = .ok (.gfalog 9 8) := by decide
-- format S (R71): STB MSG, 435, 0xAB
theorem test_decode_stb : decode 0b00110000_0000_000110110011_10101011 = .ok (.stb 0 435 0xAB) := by decide
-- format L (R72): LD ANTILOG, 14
theorem test_decode_ld : decode 0b00110001_0111_0000_0000000000001110 = .ok (.ld 7 14) := by decide
-- R75: a 1 in a must-be-zero bit, and reserved opcodes
theorem test_decode_encode_bit0 : decode 0x40000001 = .error (.nonzeroReservedBits 0x40) := by decide
theorem test_decode_gfmul_bit0 : decode 0x23312001 = .error (.nonzeroReservedBits 0x23) := by decide
theorem test_decode_gfrd_bit23 : decode 0x211C0000 = .error (.nonzeroReservedBits 0x21) := by decide
theorem test_decode_ld_bit16 : decode 0x31010000 = .error (.nonzeroReservedBits 0x31) := by decide
theorem test_decode_rdcsr_bit0 : decode 0x03000001 = .error (.nonzeroReservedBits 0x03) := by decide
theorem test_decode_reserved : decode 0x50000000 = .error (.reservedOpcode 0x50) := by decide
theorem test_decode_all_ones : decode 0xFFFFFFFF = .error (.reservedOpcode 0xFF) := by decide
theorem test_decode_table_word : decodeTableWord 32 0x23312000 = some (.gfmul 3 1 2) := by decide

/-! ## Small states -/

/-- The next state of an outcome (reset where there is none). -/
def nextOf (o : Host.Outcome State Fault Refusal) : State :=
  match o with
  | .next s => s
  | .fault _ => State.reset
  | .refused _ => State.reset

/-- GF(16) built, default polynomial 0x13. -/
def field4 : State := nextOf (execGfbuild { State.reset with m := 4 })

/-- The code (m, t, k) = (4, 2, 7). -/
def code4 : State := nextOf (execDerive { field4 with t := 2, k := 7 })

/-- The received word `MSG` = msg, `ECC` = ecc in the code (4, 2, 7). -/
def received (msg ecc : Byte) : State := { code4 with msg := [(0, msg)], ecc := [(0, ecc)] }

/-- The word 28 / E5, two errors, after `SYND`, then `BMSOLVE`, then `CHIEN` (program P3). -/
def synd4 : State := nextOf (execSynd (received 0x28 0xE5))
def locator4 : State := nextOf (execBmsolve synd4)
def roots4 : State := nextOf (execChien locator4)

/-! ## One step of each command -/

theorem test_nop : (nextOf (execNop { State.reset with lasterr := 5 })).lasterr = 0 := by decide
theorem test_clear : (nextOf (execClear field4)).cfgstate = .empty := by decide +kernel
theorem test_wrcsr : (nextOf (step (State.reset.withFetchWord 32 0x0200000D))).m = 13 := by decide
theorem test_wrcsr_locked : (nextOf (execWrcsr 0x00 5 field4)).rsp = 0x06000000 := by decide +kernel
theorem test_rdcsr_lasterr : (nextOf (execRdcsr 0x0D { State.reset with lasterr := 7 })).rsp = 0x00000007 := by decide
theorem test_rdcsr_prim : (nextOf (execRdcsr 0x0E field4)).rsp = 0x00000013 := by decide +kernel
theorem test_gfbuild : field4.rsp = 0x0000000F ∧ field4.log.getD 9 0 = 14 ∧ field4.antilog.getD 14 0 = 9 := by decide +kernel
theorem test_gfbuild_not_primitive :
    (nextOf (execGfbuild { State.reset with m := 4, poly := 0x1F })).rsp = 0x01000000 := by decide +kernel
theorem test_derive : code4.rsp = 0x00000008 ∧ code4.gen = 0x1D1 := by decide +kernel
theorem test_derive_capacity : (nextOf (execDerive { field4 with t := 4, k := 1 })).rsp = 0x02000000 := by decide +kernel
theorem test_gfli : (nextOf (execGfli 1 0xF field4)).readG 1 = 0xF := by decide +kernel
theorem test_gfli_range : (nextOf (execGfli 1 0x10 field4)).rsp = 0x08000000 := by decide +kernel
theorem test_gfrd : (nextOf (execGfrd 12 (field4.setG 12 6))).rsp = 0x00000006 := by decide +kernel
theorem test_gfadd : (nextOf (execGfadd 1 1 2 ((field4.setG 1 6).setG 2 7))).readG 1 = 1 := by decide +kernel
theorem test_gfmul : (nextOf (execGfmul 5 4 2 ((field4.setG 4 0xB).setG 2 7))).readG 5 = 4 := by decide +kernel
theorem test_gfmul_zero : (nextOf (execGfmul 4 0 4 (field4.setG 4 0xB))).readG 4 = 0 := by decide +kernel
theorem test_gfdiv : (nextOf (execGfdiv 6 5 2 ((field4.setG 5 4).setG 2 7))).readG 6 = 0xB := by decide +kernel
theorem test_gfdiv_by_zero : (nextOf (execGfdiv 12 1 0 (field4.setG 1 6))).rsp = 0x07000000 := by decide +kernel
theorem test_gflog : (nextOf (execGflog 8 5 (field4.setG 5 4))).readG 8 = 2 := by decide +kernel
theorem test_gflog_zero : (nextOf (execGflog 10 0 field4)).readG 10 = 0xF := by decide +kernel
theorem test_gfalog : (nextOf (execGfalog 9 8 (field4.setG 8 2))).readG 9 = 4 := by decide +kernel
theorem test_gfalog_top : (nextOf (execGfalog 11 10 (field4.setG 10 0xF))).readG 11 = 1 := by decide +kernel
theorem test_stb : (nextOf (execStb 0 0 0xAB code4)).msg = [(0, 0xAB)] := by decide +kernel
theorem test_stb_length : (nextOf (execStb 0 1 0 code4)).rsp = 0x03000000 := by decide +kernel
theorem test_ld_gen : (nextOf (execLd 8 0 code4)).rsp = 0x000000E8 ∧ (nextOf (execLd 8 1 code4)).rsp = 0x00000080 := by
  decide +kernel
theorem test_ld_syn_length : (nextOf (execLd 3 4 synd4)).rsp = 0x03000000 := by decide +kernel
theorem test_encode : (nextOf (execEncode { code4 with msg := [(0, 0xAB)] })).ecc = [(0, 0xE5)] := by decide +kernel
theorem test_synd : synd4.rsp = 0x00000000 ∧ synd4.syn = [0xC, 0xF, 0x5, 0xA] := by decide +kernel
theorem test_synd_clean : (nextOf (execSynd (received 0xAB 0xE5))).rsp = 0x00000001 := by decide +kernel
theorem test_bmsolve : locator4.rsp = 0x00000002 ∧ locator4.elp = [1, 0xC, 0xB, 0, 0] := by decide +kernel
theorem test_bmsolve_sequence : (nextOf (execBmsolve (received 0x28 0xE5))).rsp = 0x06000000 := by decide +kernel
theorem test_chien : roots4.rsp = 0x00000002 ∧ roots4.loc = [14, 8] := by decide +kernel
theorem test_chien_sequence : (nextOf (execChien roots4)).rsp = 0x06000000 := by decide +kernel
theorem test_correct : (nextOf (execCorrect roots4)).msg = [(0, 0xAA)] ∧ (nextOf (execCorrect roots4)).eccs = [(0, 0xE5)] := by
  decide +kernel
theorem test_decode_two_errors :
    (nextOf (execDecode (received 0x28 0xE5))).rsp = 0x00000002 ∧ (nextOf (execDecode (received 0x28 0xE5))).msg = [(0, 0xAA)] := by
  decide +kernel
theorem test_decode_fails :
    (nextOf (execDecode (received 0x6E 0xE5))).rsp = 0x04000000 ∧ (nextOf (execDecode (received 0x6E 0xE5))).msg = [(0, 0x6E)] := by
  decide +kernel
theorem test_illegal_word : (nextOf (execWord 0x23312001 field4)).rsp = 0x05000000 := by decide +kernel

/-! ## Witnesses: for each statement with hypotheses, operands that meet them all -/

/-- An outcome that is a next state, spelled so that the state can be computed. -/
theorem next_nextOf (i : Instr) (s : State) : exec i s = .next (nextOf (exec i s)) := by
  rw [exec_eq]; obtain ⟨t, h⟩ := (commandBody i s).finish_next; rw [h]; rfl

/-- GF(4), the smallest field, and in it the smallest code: (m, t, k) = (2, 1, 1), n = 3, E = 2. -/
def field2 : State := nextOf (execGfbuild { State.reset with m := 2 })
def code2 : State := nextOf (execDerive { field2 with t := 1, k := 1 })

theorem alphaPow_two : alphaPow 2 7 0 = 1 ∧ alphaPow 2 7 1 = 2 ∧ alphaPow 2 7 2 = 3 ∧ alphaPow 2 7 3 = 1 := by decide

theorem witness_primitive : Primitive 2 7 where
  not_before := by
    intro i h0 h1
    have : i < 3 := h1
    interval_cases i <;> decide
  at_n := by decide

theorem witness_tables : TablesOk 2 7 code2.tables where
  m_lo := by decide
  m_hi := by decide
  degree := by decide
  n_eq := by decide +kernel
  antilog_size := by decide +kernel
  log_size := by decide +kernel
  antilog_eq := by
    have : ∀ i, i < 3 → (code2.tables.antilogAt i).toNat = alphaPow 2 7 i := by decide +kernel
    exact fun i h => this i (lt_of_lt_of_eq h (by decide +kernel))
  antilog_top := by decide +kernel
  log_zero := by decide +kernel
  antilog_log := by
    have : ∀ x, x < 4 → 1 ≤ x → (code2.tables.antilogAt (code2.tables.logAt x).toNat).toNat = x := by decide +kernel
    have hn : code2.tables.n = 3 := by decide +kernel
    exact fun x h1 h => this x (by omega) h1
  log_antilog := by
    have : ∀ e, e < 3 → (code2.tables.logAt (code2.tables.antilogAt e).toNat).toNat = e := by decide +kernel
    exact fun e h => this e (lt_of_lt_of_eq h (by decide +kernel))
  antilog_ne := by
    have : ∀ e, e < 4 → code2.tables.antilogAt e ≠ 0 := by decide +kernel
    have hn : code2.tables.n = 3 := by decide +kernel
    exact fun e h => this e (by omega)
  log_lt := by
    have : ∀ x, x < 4 → 1 ≤ x → (code2.tables.logAt x).toNat < 3 := by decide +kernel
    have hn : code2.tables.n = 3 := by decide +kernel
    exact fun x h1 h => by rw [hn]; exact this x (by omega) h1

theorem code2_g : code2.g = Vector.replicate 16 0 := by decide +kernel

theorem witness_field : FieldOk code2 where
  tables := by
    have hm : code2.m.toNat = 2 := by decide +kernel
    have hp : code2.prim.toNat = 7 := by decide +kernel
    rw [hm, hp]; exact witness_tables
  regs := by
    intro r
    have : code2.readG r = 0 := by unfold State.readG; simp [code2_g]
    rw [this]; decide +kernel

theorem witness_code : code2.cfgstate = .code ∧ CodeOk code2 := by
  refine ⟨by decide +kernel, ?_⟩
  constructor
  case elp_above =>
    intro j hj
    have hd : code2.elpdeg.toNat = 0 := by decide +kernel
    have he : code2.elp = [1, 0, 0] := by decide +kernel
    rw [he]
    match j with
    | 0 => omega
    | 1 => rfl
    | 2 => rfl
    | _ + 3 => rfl
  case mod8_eq =>
    have h : code2.mod8.toList = (mod8Table code2.gen code2.ebits.toNat).toList := by decide +kernel
    exact Array.toList_inj.1 h
  all_goals decide +kernel

theorem witness_buffers : BuffersOk code2 := by decide +kernel

/-- A configured block meets the invariant, and its next step exists (`StepKeepsTheInvariant`, `StepKeepsBuffersCanonical`). -/
theorem witness_invariant : StateInv code2 ∧ BuffersOk code2 ∧ ∃ t, step code2 = .next t where
  left :=
    { buffers := witness_buffers
      status := ⟨by decide +kernel, 2, by decide +kernel, by decide +kernel⟩
      unbuilt := ⟨fun h => absurd h (by decide +kernel), fun h => absurd witness_code.1 h⟩
      field := fun _ => witness_field
      code := fun _ => witness_code.2
      stage := ⟨fun h => absurd h (by decide +kernel), fun h => absurd h (by decide +kernel)⟩ }
  right := ⟨witness_buffers, code2, by
    have : code2.port = [] := by decide +kernel
    unfold step; rw [this]⟩

/-- `UnspecifiedStateIsUnobservable`: two different states of the same class. -/
theorem witness_indistinct :
    Indistinct State.reset { State.reset with gen := 5, rem := 3 } ∧ ∃ t, step State.reset = .next t :=
  ⟨⟨rfl, rfl, fun c => by cases c <;> rfl, rfl, fun h => absurd rfl h, fun h => by cases h⟩, _, rfl⟩

/-- `StepRunsTheDecodedCommand` (a word that decodes, and an illegal one), `StepWaitsOrResets`. -/
theorem witness_port :
    (State.reset.withFetchWord 32 0x0200000D).port = .command 0x0200000D :: [] ∧
      decode 0x0200000D = .ok (.wrcsr 0x00 13) ∧
      (State.reset.withFetchWord 32 0x50000000).port = .command 0x50000000 :: [] ∧ State.reset.port = [] ∧
      (State.port { State.reset with port := [.reset] }) = .reset :: [] := by decide

/-- `DecodingIsTotalAndUnambiguous`, `EncodeOfDecode`: a word that selects a row, and one that selects none. -/
theorem witness_decode :
    decode 0x23312000 = .ok (.gfmul 3 1 2) ∧ (opcodeRow (.gfmul 3 1 2)).selects 0x23312000 ∧
      opcodeRow (.gfmul 3 1 2) ∈ opcodeMap ∧ ¬∃ row ∈ opcodeMap, row.selects 0x50000000 := by decide

/-- `IllegalCommandDependsOnTheWordAlone`, both clauses at the ends of the CSR numbers (R76). -/
theorem witness_illegal :
    illegalWord 0x030F0000 = true ∧ illegalWord 0x030E0000 = false ∧ illegalWord 0x50000000 = true ∧
      ∃ t, execWord 0x030E0000 State.reset = .next t := ⟨by decide, by decide, by decide, _, rfl⟩

/-- `BadSequenceExactlyAsListed`, `FailuresChangeOnlyScratch` (first clause), `EveryResponseCarriesItsCode`. -/
theorem witness_bad_sequence :
    WellFormed .encode = true ∧ exec .encode State.reset = .next { State.reset with rsp := 0x06000000, lasterr := 6 } ∧
      outOfSequence .encode State.reset = true ∧ WellFormed .nop = true ∧ exec .nop State.reset = .next State.reset ∧
      outOfSequence .nop State.reset = false :=
  ⟨by decide, rfl, by decide, by decide, rfl, by decide⟩

/-- `FailuresChangeOnlyScratch` (second clause), `StageMachine`, `WhoChangesTheBuffers`, `WhoChangesTheDecoderResults`. -/
theorem witness_uncorrectable :
    ∃ t, exec .decode (received 0x6E 0xE5) = .next t ∧ t.lasterr = 4 ∧ t.stage = .failed ∧ t.eccs ≠ code4.eccs ∧
      t.syn ≠ code4.syn ∧ t.elp ≠ code4.elp ∧ t.elpdeg ≠ code4.elpdeg :=
  ⟨nextOf (exec .decode (received 0x6E 0xE5)), next_nextOf .decode (received 0x6E 0xE5), by decide +kernel⟩

/-- `StageMachine`, `WhoChangesTheBuffers`, `WhoChangesTheDecoderResults`: a decode that succeeds. -/
theorem witness_decoded :
    ∃ t, exec .decode (received 0x28 0xE5) = .next t ∧ t.lasterr = 0 ∧ t.stage = .done ∧
      t.msg ≠ (received 0x28 0xE5).msg ∧ t.loc ≠ code4.loc ∧ t.nerr ≠ code4.nerr :=
  ⟨nextOf (exec .decode (received 0x28 0xE5)), next_nextOf .decode (received 0x28 0xE5), by decide +kernel⟩

/-- `StageMachine`: each required stage, met and not met. -/
theorem witness_stages :
    code4.cfgstate = .code ∧ stageRequired .bmsolve = some .synd ∧ synd4.stage = .synd ∧
      stageRequired .chien = some .locator ∧ locator4.stage = .locator ∧ stageRequired .correct = some .roots ∧
      roots4.stage = .roots ∧ code4.stage ≠ .synd ∧ code4.stage ≠ .locator ∧ code4.stage ≠ .roots ∧
      State.reset.cfgstate ≠ .code := by decide +kernel

/-- `CfgstateTransitions`, `ConfigurationLock`: the three successful transitions, and commands in FIELD and CODE. -/
theorem witness_transitions :
    (∃ t, exec .gfbuild { State.reset with m := 4 } = .next t ∧ t.lasterr = 0 ∧ t.cfgstate = .field) ∧
    (∃ t, exec .derive { field4 with t := 2, k := 7 } = .next t ∧ t.lasterr = 0 ∧ t.cfgstate = .code) ∧
    (∃ t, exec .clear code4 = .next t ∧ t.cfgstate = .empty) ∧
    Instr.gfbuild ≠ .clear ∧ (∃ t, exec .gfbuild code4 = .next t) ∧ ∃ t, exec .gfbuild field4 = .next t :=
  ⟨⟨_, next_nextOf .gfbuild { State.reset with m := 4 }, by decide +kernel⟩,
    ⟨_, next_nextOf .derive { field4 with t := 2, k := 7 }, by decide +kernel⟩,
    ⟨_, next_nextOf .clear code4, by decide +kernel⟩, by decide, ⟨_, next_nextOf .gfbuild code4⟩,
    ⟨_, next_nextOf .gfbuild field4⟩⟩

/-- `OtherCommandsIgnoreTheGRegisters`, `CommandsIgnoreThePort`. -/
theorem witness_next : ∃ t, exec .synd (received 0x28 0xE5) = .next t :=
  ⟨_, next_nextOf .synd (received 0x28 0xE5)⟩

/-- `WhoChangesTheBuffers`: `ECC` changed, by `ENCODE`. -/
theorem witness_ecc_changes : ∃ t, exec .encode (received 0xAA 0) = .next t ∧ t.ecc ≠ (received 0xAA 0).ecc :=
  ⟨nextOf (exec .encode (received 0xAA 0)), next_nextOf .encode (received 0xAA 0), by decide +kernel⟩

/-- `WhoChangesTheDecoderResults`: `SYNZ` changed, by `SYND`. -/
theorem witness_synz_changes : ∃ t, exec .synd (received 0xAA 0xE5) = .next t ∧ t.synz ≠ (received 0xAA 0xE5).synz :=
  ⟨nextOf (exec .synd (received 0xAA 0xE5)), next_nextOf .synd (received 0xAA 0xE5), by decide +kernel⟩

/-- `CanonicalBuffersAreUnique`. -/
theorem witness_canonical : Memory.wf [(0, 0xAA), (3, 1)] = true ∧ ∀ i, Memory.read [(0, 0xAA)] i = Memory.read [(0, 0xAA)] i :=
  ⟨by decide, fun _ => rfl⟩

/-- The statements that end in `LowBitsZero`, and `RdcsrReads`: a nonzero must-be-zero field. -/
theorem witness_nop_bits : (1 : BitVec 24) ≠ 0 ∧ (1 : Half) ≠ 0 := by decide

/-- `WrcsrWrites`: each state, and the numbers at the ends of each clause's range. -/
theorem witness_wrcsr :
    State.reset.cfgstate = .empty ∧ State.reset.cfgstate ≠ .code ∧ field4.cfgstate ≠ .empty ∧ field4.cfgstate ≠ .code ∧
      code4.cfgstate = .code ∧ (0x00#8).toNat ≤ 0x01 ∧ (0x01#8).toNat ≤ 0x01 ∧ 0x02 ≤ (0x02#8).toNat ∧
      (0x03#8).toNat ≤ 0x03 ∧ 0x03 < (0x04#8).toNat ∧ 0x03 < (0xFF#8).toNat ∧ 0x0E < (0x0F#8).toNat := by decide +kernel

theorem witness_primitive_poly : Primitive 4 0x13 where
  not_before := by
    intro i h0 h1
    have : i < 15 := h1
    interval_cases i <;> decide
  at_n := by decide

/-- `GfbuildBuildsTheField`: the smallest order with the default polynomial, and order 4 with POLY = 0x13; then an order too
small, one too large, a polynomial of the wrong degree, and a state outside EMPTY. -/
theorem witness_gfbuild :
    (State.reset.cfgstate = .empty ∧ State.reset.poly = 0 ∧ Config.defPoly (2 : Half).toNat = 7 ∧ 7 >>> 2 = 1 ∧
      Primitive 2 7) ∧
    ((0x13 : Half) ≠ 0 ∧ (0x13 : Half).toNat >>> (4 : Half).toNat = 1 ∧ Primitive 4 (0x13 : Half).toNat) ∧
    (1 : Half).toNat < 2 ∧ 15 < (16 : Half).toNat ∧ (7 : Half) ≠ 0 ∧ (7 : Half).toNat >>> 4 ≠ 1 ∧
    field4.cfgstate ≠ .empty :=
  ⟨⟨rfl, rfl, by decide, by decide, witness_primitive⟩, ⟨by decide, by decide, witness_primitive_poly⟩, by decide, by decide,
    by decide, by decide, by decide +kernel⟩

/-- `GfbuildBuildsTheField`: 0x1F is not primitive of order 4 (program P5): α^5 = 1. -/
theorem witness_not_primitive : ¬Primitive 4 0x1F := fun h => h.not_before 5 (by decide) (by decide) (by decide)

/-- `DeriveCommitsTheCode`: both capacity tests just passed; each of the four just failed; a state outside FIELD. -/
theorem witness_derive :
    field2.cfgstate = .field ∧ field2.m.toNat * 1 < field2.n.toNat ∧ 1 + (genPoly field2.tables 2 1).log2 ≤ field2.n.toNat ∧
      field2.n.toNat ≤ field2.m.toNat * 2 ∧ field2.n.toNat < 2 + (genPoly field2.tables 2 1).log2 ∧
      code2.cfgstate ≠ .field := by decide +kernel

/-- `GeneratorDegreeBounds`, `GfMulIsThePolynomialProduct`, `FieldLaws`, `EvenSyndromesAreSquares`,
`SyndromesAreZeroExactlyOnCodewords`: the largest element, the largest remainder. -/
theorem witness_elements :
    TablesOk 2 7 code2.tables ∧ 1 ≤ 1 ∧ 2 * 1 < code2.tables.n ∧ code2.tables.elem 3 ∧ code2.tables.elem 0 ∧ (3 : Half) ≠ 0 ∧
      3 < 2 ^ (genPoly code2.tables 2 1).log2 :=
  ⟨witness_tables, by decide +kernel⟩

/-- `GfliLoadsAndGfrdReads`, `GfBinaryCommandsCompute`, `GfTableCommandsLookUp`, `GfChecksComeInOrder`: values at n and at
n + 1, a zero and a nonzero divisor, a register at 0 and at n. -/
theorem witness_gf :
    field4.cfgstate ≠ .empty ∧ (0xF : Half).toNat ≤ field4.n.toNat ∧ field4.n.toNat < (0x10 : Half).toNat ∧
      (field4.setG 1 0xF).readG 1 = field4.n ∧ field4.readG 1 = 0 ∧ State.reset.cfgstate = .empty ∧
      ((field4.setG 1 0xF).readG 1).toNat ≤ field4.n.toNat ∧ (field4.setG 1 0xF).readG 1 ≠ 0 ∧
      field4.n.toNat < ((field4.setG 1 0x10).readG 1).toNat := by decide +kernel

theorem witness_gf_field : code2.cfgstate ≠ .empty ∧ FieldOk code2 := ⟨by decide +kernel, witness_field⟩

/-- `StbStoresOneByte`, `LdReadsOneElement`, `LdErrorsComeInOrder`: the last index of each space, the first beyond it, and
the space numbers at the ends. -/
theorem witness_buffer :
    BuffersOk code4 ∧ code4.cfgstate = .code ∧ 0 < code4.kbytes.toNat ∧ code4.kbytes.toNat ≤ 1 ∧ 0 < code4.ebytes.toNat ∧
      code4.ebytes.toNat ≤ 1 ∧ 1 < (2#4).toNat ∧ (1#4).toNat ≤ 1 ∧ field4.cfgstate ≠ .code ∧ 3 < 2 * code4.t.toNat ∧
      4 < 2 * code4.t.toNat + 1 ∧ 1 < roots4.nerr.toNat ∧ roots4.cfgstate = .code ∧ 1 < (code4.ebits.toNat + 8) / 8 ∧
      15 ≤ field4.n.toNat ∧ field4.n.toNat + 1 ≤ 16 ∧ field4.cfgstate ≠ .empty ∧ 8 < (9#4).toNat ∧ (8#4).toNat ≤ 8 ∧ State.reset.cfgstate = .empty := by
  decide +kernel

/-- `ByteStepIsEightBitSteps`, `RemainderIsThePolynomialRemainder`: the smallest divider. -/
theorem witness_divider : 2 ≤ 2 ∧ 1 < 2 ^ Nat.log2 2 := by decide

/-- `PackAndUnpack`: a value of nine bits, its second byte. -/
theorem witness_pack : 511 < 2 ^ 9 ∧ Memory.wf [(0, 0xFF)] = true ∧ 1 < (9 + 7) / 8 ∧ 7 < 8 := by decide

/-- `EncodingIsLinear`. -/
theorem witness_linear :
    ∀ j, j < 8 → Memory.bit [(0, 0xAB)] j = (Memory.bit [(0, 0xA0)] j ^^ Memory.bit [(0, 0x0B)] j) := by decide

/-- `ShorteningInvariance`: one zero bit put before a message of one bit. -/
theorem witness_shortening :
    (∀ j, j < 2 - 1 → Memory.bit [(0, 0x40)] j = false) ∧
      ∀ j, j < 1 → Memory.bit [(0, 0x40)] (2 - 1 + j) = Memory.bit [(0, 0x80)] j := by decide

/-- `EncodeWritesTheRemainder`, `EncodeThenDecodeIsClean`, `SyndComputesTheSyndromes`, `DecodeIsTheFourStages`,
`DecodeIsAllOrNothing`. -/
theorem witness_codec : code2.cfgstate = .code ∧ FieldOk code2 ∧ CodeOk code2 ∧ BuffersOk code2 :=
  ⟨witness_code.1, witness_field, witness_code.2, witness_buffers⟩

/-- `BmsolveRunsTheSolver`: L = t, and L > t (program P4: the word 6A / E1). -/
theorem witness_bmsolve :
    synd4.cfgstate = .code ∧ synd4.stage = .synd ∧ synd4.solve.l = synd4.t.toNat ∧
      (nextOf (execSynd (received 0x6A 0xE1))).stage = .synd ∧
      (nextOf (execSynd (received 0x6A 0xE1))).t.toNat < (nextOf (execSynd (received 0x6A 0xE1))).solve.l := by
  decide +kernel

/-- `SolverOnZeroSyndromes`. -/
theorem witness_zero_syndromes : ∀ i, List.getD [0#16, 0#16] i 0 = 0 := by
  intro i
  match i with
  | 0 => rfl
  | 1 => rfl
  | _ + 2 => rfl

/-- The word 6E / E5 after `SYND` and `BMSOLVE`: L = 2, no roots (program P4). -/
def locator4Bad : State := nextOf (execBmsolve (nextOf (execSynd (received 0x6E 0xE5))))

/-- `ChienFindsExactlyTheRoots`: as many roots as the degree, at most t of them; and fewer. -/
theorem witness_chien :
    locator4.cfgstate = .code ∧ locator4.stage = .locator ∧ locator4.search.length = locator4.elpdeg.toNat ∧
      locator4.search.length ≤ locator4.t.toNat ∧ locator4Bad.cfgstate = .code ∧ locator4Bad.stage = .locator ∧
      locator4Bad.search.length ≠ locator4Bad.elpdeg.toNat := by decide +kernel

/-- `CorrectFlipsExactlyTheListedBits`: two distinct positions, message bits 0 and 6. -/
theorem witness_correct :
    roots4.cfgstate = .code ∧ roots4.stage = .roots ∧ BuffersOk roots4 ∧
      (∀ j, j < roots4.nerr.toNat → ∀ i, i < j → roots4.loc.getD i 0 ≠ roots4.loc.getD j 0) ∧
      (roots4.loc.getD 0 0).toNat = roots4.k.toNat + roots4.ebits.toNat - 1 - 0 ∧
      (roots4.loc.getD 1 0).toNat = roots4.k.toNat + roots4.ebits.toNat - 1 - 6 := by decide +kernel

/-- `DecodeCorrectsUpToTErrors`, `DecodeCorrectsOneError`: the zero message of the code (2, 1, 1), its ECC, and one flipped
bit, the last ECC bit (position 0). -/
theorem witness_errors :
    (code2.cfgstate = .code ∧ FieldOk code2 ∧ CodeOk code2 ∧ BuffersOk code2) ∧
      (∃ t, exec .encode code2 = .next t ∧ t.ecc = [] ∧ ([] : Memory) = code2.msg ∧
        ([0] : List Nat).Pairwise (· > ·) ∧ (∀ p ∈ [0], p < code2.k.toNat + code2.ebits.toNat) ∧
        ([0] : List Nat).length ≤ code2.t.toNat ∧ Memory.wf [] = true ∧ Memory.wf [(0, 0x40)] = true ∧
        (∀ j, j < code2.k.toNat →
          Memory.bit [] j = (code2.msg.bit j ^^ decide (code2.k.toNat + code2.ebits.toNat - 1 - j ∈ [0]))) ∧
        (∀ j, j < code2.ebits.toNat →
          Memory.bit [(0, 0x40)] j = (t.ecc.bit j ^^ decide (code2.ebits.toNat - 1 - j ∈ [0]))) ∧
        ([], [(0, 0x40)]) = correctOne code2.k.toNat code2.ebits.toNat (code2.msg, t.ecc) 0) :=
  ⟨witness_codec, _, next_nextOf .encode code2, by decide +kernel⟩

end Sys2Proof.Tests
end

section
/-! What one command can do, said once for all 21 commands: the equations of a command's end, and the relation
`Effect` that lists every way the body of a command (steps 2 to 4 of R81) can end. -/

namespace Sys2Proof.Machine

/-! ## The end of a command, as an equation -/

/-- The state a body leaves, before the response is written. -/
def Result.state (r : Result) : State :=
  match r with
  | .ok _ s => s
  | .err _ s => s

/-- The code the response will carry (R145). -/
def Result.code (r : Result) : BitVec 8 :=
  match r with
  | .ok _ _ => 0
  | .err e _ => e.code

/-- The data the response will carry (R78). -/
def Result.data (r : Result) : Half :=
  match r with
  | .ok d _ => d
  | .err _ _ => 0

@[simp] theorem Result.state_ok (d : Half) (s : State) : (Result.ok d s).state = s := rfl
@[simp] theorem Result.state_err (e : Err) (s : State) : (Result.err e s).state = s := rfl
@[simp] theorem Result.code_ok (d : Half) (s : State) : (Result.ok d s).code = 0 := rfl
@[simp] theorem Result.code_err (e : Err) (s : State) : (Result.err e s).code = e.code := rfl
@[simp] theorem Result.data_ok (d : Half) (s : State) : (Result.ok d s).data = d := rfl
@[simp] theorem Result.data_err (e : Err) (s : State) : (Result.err e s).data = 0 := rfl

/-- Every command ends by reporting its code and data on the state its body left (step 5 of R81). -/
theorem Result.finish_eq (r : Result) : r.finish = .next (r.state.report r.code r.data) := by
  cases r <;> rfl

/-- A reported result shows one of the codes 0 to 8, and data 0 with any code but 0 (R22, R78, R145). -/
theorem Result.report_statusOk (r : Result) : StatusOk (r.state.report r.code r.data) := by
  cases r with
  | ok d s => exact ⟨by simp, d, rfl, fun h => absurd rfl h⟩
  | err e s => exact ⟨e.code_le, 0, rfl, fun _ => rfl⟩

/-- The next state of a command, from what its body leaves. -/
theorem exec_next_iff {i : Instr} {s t : State} :
    exec i s = .next t ↔
      t = (commandBody i s).state.report (commandBody i s).code (commandBody i s).data := by
  rw [exec_eq, Result.finish_eq, Host.Outcome.next.injEq, eq_comm]

/-! ## The ways a body can end -/

/-- The value a computing GF command (R103 to R107) writes to `G[rd]`. -/
inductive GfOutput (s : State) : Instr → GReg → Half → Prop where
  | add (rd a b) : GfOutput s (.gfadd rd a b) rd (gfAdd (s.readG a) (s.readG b))
  | mul (rd a b) : GfOutput s (.gfmul rd a b) rd (s.tables.mul (s.readG a) (s.readG b))
  | div (rd a b) : s.readG b ≠ 0 → GfOutput s (.gfdiv rd a b) rd (s.tables.div (s.readG a) (s.readG b))
  | log (rd a) : GfOutput s (.gflog rd a) rd (s.tables.logAt (s.readG a).toNat)
  | antilog (rd a) : GfOutput s (.gfalog rd a) rd (s.tables.antilogAt (s.readG a).toNat)

/-- `Effect s i r`: from the state `s` the body of the command `i` may end with `r`. A refusal changes nothing; every
other constructor names the condition under which its commit is made. -/
inductive Effect (s : State) : Instr → Result → Prop where
  | refuse (i e) : e ≠ .uncorrectableError → Effect s i (.err e s)
  | nop : Effect s .nop (.ok 0 s)
  | clear : Effect s .clear (.ok 0 s.clear)
  | writeM (csr v) : s.cfgstate = .empty → Effect s (.wrcsr csr v) (.ok 0 { s with m := v })
  | writePoly (csr v) : s.cfgstate = .empty → Effect s (.wrcsr csr v) (.ok 0 { s with poly := v })
  | writeT (csr v) : s.cfgstate ≠ .code → Effect s (.wrcsr csr v) (.ok 0 { s with t := v })
  | writeK (csr v) : s.cfgstate ≠ .code → Effect s (.wrcsr csr v) (.ok 0 { s with k := v })
  | readCsr (csr r) : csrNumber csr = some r → Effect s (.rdcsr csr) (.ok (s.readCsr r) s)
  | build (A L) : s.cfgstate = .empty → 2 ≤ s.m.toNat → s.m.toNat ≤ 15 → s.polyInUse >>> s.m.toNat = 1 →
      buildField s.m.toNat s.polyInUse = some (A, L) →
      Effect s .gfbuild (.ok (BitVec.ofNat 16 (2 ^ s.m.toNat - 1)) (s.commitField s.polyInUse A L))
  | derive (g) : s.cfgstate = .field → g = genPoly s.tables s.m.toNat s.t.toNat →
      1 ≤ s.t.toNat → s.m.toNat * s.t.toNat < s.n.toNat → 1 ≤ s.k.toNat → s.k.toNat + g.log2 ≤ s.n.toNat →
      Effect s .derive (.ok (BitVec.ofNat 16 g.log2) (s.commitCode g))
  | gfLoad (rd v) : s.cfgstate ≠ .empty → v.toNat ≤ s.n.toNat → Effect s (.gfli rd v) (.ok 0 (s.setG rd v))
  | gfRead (r) : s.cfgstate ≠ .empty → Effect s (.gfrd r) (.ok (s.readG r) s)
  | gfCompute (i rd v) : s.cfgstate ≠ .empty → GfOutput s i rd v → Effect s i (.ok v (s.setG rd v))
  | storeMsg (idx d) : s.cfgstate = .code →
      Effect s (.stb 0 idx d) (.ok 0 ((s.writeSpace .msg idx.toNat d).setStage .idle))
  | storeEcc (idx d) : s.cfgstate = .code →
      Effect s (.stb 1 idx d) (.ok 0 ((s.writeSpace .ecc idx.toNat d).setStage .idle))
  | readSpace (space idx sp) : spaceNumber space = some sp →
      Effect s (.ld space idx) (.ok (s.readSpace sp idx.toNat) s)
  | encode : s.cfgstate = .code →
      Effect s .encode (.ok 0 ((s.storeEcc (s.divider.remainder s.k.toNat s.msg)).setStage .idle))
  | synd : s.cfgstate = .code → Effect s .synd (.ok (syndBody s).flags (syndBody s))
  | locator : s.cfgstate = .code → s.stage = .synd → s.solve.l ≤ s.t.toNat →
      Effect s .bmsolve (.ok (BitVec.ofNat 16 s.solve.l) ((s.storeLocator s.solve).setStage .locator))
  | noLocator : s.cfgstate = .code → s.stage = .synd → s.t.toNat < s.solve.l →
      Effect s .bmsolve (.err .uncorrectableError ((s.storeLocator s.solve).setStage .failed))
  | roots : s.cfgstate = .code → s.stage = .locator → s.search.length = s.elpdeg.toNat →
      Effect s .chien (.ok (BitVec.ofNat 16 s.search.length) ((s.storeRoots s.search).setStage .roots))
  | noRoots : s.cfgstate = .code → s.stage = .locator → s.search.length ≠ s.elpdeg.toNat →
      Effect s .chien (.err .uncorrectableError ((s.storeRoots s.search).setStage .failed))
  | correct : s.cfgstate = .code → s.stage = .roots → Effect s .correct (.ok s.nerr (correctBody s))
  | decodeClean : s.cfgstate = .code → (syndBody s).synz = true →
      Effect s .decode (.ok 0 ((syndBody s).setStage .done))
  | decodeNoLocator : s.cfgstate = .code → s.t.toNat < (syndBody s).solve.l →
      Effect s .decode (.err .uncorrectableError (((syndBody s).storeLocator (syndBody s).solve).setStage .failed))
  | decodeNoRoots : s.cfgstate = .code → (syndBody s).solve.l ≤ s.t.toNat →
      s.decodeLocator.search.length ≠ s.decodeLocator.elpdeg.toNat →
      Effect s .decode
        (.err .uncorrectableError ((s.decodeLocator.storeRoots s.decodeLocator.search).setStage .failed))
  | decodeCorrect : s.cfgstate = .code → (syndBody s).solve.l ≤ s.t.toNat →
      s.decodeLocator.search.length = s.decodeLocator.elpdeg.toNat →
      Effect s .decode (.ok s.decodeRoots.nerr (correctBody s.decodeRoots))

/-! ## Each body ends in one of those ways -/

/-- The registers `WRCSR` writes, and the states in which it may (R84). -/
theorem wrcsrBody_effect (csr : BitVec 8) (v : Half) (s : State) : Effect s (.wrcsr csr v) (wrcsrBody csr v s) := by
  unfold wrcsrBody
  split
  · split
    · exact .refuse _ _ (by decide)
    · exact .writeM csr v (not_not.1 ‹_›)
  · split
    · exact .refuse _ _ (by decide)
    · exact .writePoly csr v (not_not.1 ‹_›)
  · split
    · exact .refuse _ _ (by decide)
    · exact .writeT csr v ‹_›
  · split
    · exact .refuse _ _ (by decide)
    · exact .writeK csr v ‹_›
  · exact .refuse _ _ (by decide)

theorem rdcsrBody_effect (csr : BitVec 8) (s : State) : Effect s (.rdcsr csr) (rdcsrBody csr s) := by
  unfold rdcsrBody
  split
  · exact .readCsr csr _ ‹_›
  · exact .refuse _ _ (by decide)

theorem gfbuildBody_effect (s : State) : Effect s .gfbuild (gfbuildBody s) := by
  unfold gfbuildBody
  split
  · exact .refuse _ _ (by decide)
  next hc =>
  split
  · exact .refuse _ _ (by decide)
  next hm =>
  split
  · exact .refuse _ _ (by decide)
  next hP =>
  rw [not_or, not_lt, not_lt] at hm
  split
  · exact .refuse _ _ (by decide)
  next A L hb => exact .build A L (not_not.1 hc) hm.1 hm.2 (not_not.1 hP) hb

theorem deriveBody_effect (s : State) : Effect s .derive (deriveBody s) := by
  unfold deriveBody
  split
  · exact .refuse _ _ (by decide)
  next hc =>
  split
  · exact .refuse _ _ (by decide)
  next ht =>
  dsimp only
  split
  · exact .refuse _ _ (by decide)
  next hk =>
  rw [not_or, not_lt, not_le] at ht
  rw [not_or, not_lt, not_lt] at hk
  exact .derive _ (not_not.1 hc) rfl ht.1 ht.2 hk.1 hk.2

/-- The checks of R100 raise nothing else than `BadSequence` and `OperandRange`. -/
theorem State.gfCheck_ne_uncorrectable {s : State} {vs : List Half} {e : Err} (h : s.gfCheck vs = some e) :
    e ≠ .uncorrectableError := by
  obtain ⟨-, rfl⟩ | ⟨-, -, rfl⟩ := (s.gfCheck_some vs e).1 h <;> decide

theorem gfliBody_effect (rd : GReg) (v : Half) (s : State) : Effect s (.gfli rd v) (gfliBody rd v s) := by
  unfold gfliBody
  split
  next e h => exact .refuse _ _ (State.gfCheck_ne_uncorrectable h)
  next h =>
    obtain ⟨hc, hv⟩ := (s.gfCheck_none _).1 h
    exact .gfLoad rd v hc (hv v (by simp))

theorem gfrdBody_effect (r : GReg) (s : State) : Effect s (.gfrd r) (gfrdBody r s) := by
  unfold gfrdBody
  split
  next e h => exact .refuse _ _ (State.gfCheck_ne_uncorrectable h)
  next h => exact .gfRead r ((s.gfCheck_none _).1 h).1

theorem gfWrite_effect {i : Instr} {s : State} {rd : GReg} {v : Half} (vs : List Half) (ho : GfOutput s i rd v) :
    Effect s i (s.gfWrite rd vs v) := by
  rw [State.gfWrite_eq]
  split
  next e h => exact .refuse _ _ (State.gfCheck_ne_uncorrectable h)
  next h => exact .gfCompute _ _ _ ((s.gfCheck_none _).1 h).1 ho

theorem gfdivBody_effect (rd a b : GReg) (s : State) : Effect s (.gfdiv rd a b) (gfdivBody rd a b s) := by
  unfold gfdivBody
  split
  next e h => exact .refuse _ _ (State.gfCheck_ne_uncorrectable h)
  next h =>
    split
    · exact .refuse _ _ (by decide)
    next hb => exact .gfCompute _ _ _ ((s.gfCheck_none _).1 h).1 (.div rd a b hb)

/-- The space numbers of the two spaces `STB` can name (R45). -/
theorem spaceNumber_eq_msg {space : BitVec 4} (h : spaceNumber space = some .msg) : space = 0 := by
  revert space; decide

theorem spaceNumber_eq_ecc {space : BitVec 4} (h : spaceNumber space = some .ecc) : space = 1 := by
  revert space; decide

/-- `STB` after its space is known: it refuses, or it stores in a derived code (R111). -/
theorem stbSpace_cases (sp : Space) (idx : BitVec 12) (d : Byte) (s : State) :
    (∃ e, e ≠ .uncorrectableError ∧ stbSpace sp idx d s = .err e s) ∨
      (s.cfgstate = .code ∧ stbSpace sp idx d s = .ok 0 ((s.writeSpace sp idx.toNat d).setStage .idle)) := by
  unfold stbSpace
  split
  · exact .inl ⟨_, by decide, rfl⟩
  next hc =>
    split
    · exact .inl ⟨_, by decide, rfl⟩
    · exact .inr ⟨not_not.1 hc, rfl⟩

theorem stbBody_effect (space : BitVec 4) (idx : BitVec 12) (d : Byte) (s : State) :
    Effect s (.stb space idx d) (stbBody space idx d s) := by
  unfold stbBody
  split
  next h =>
    obtain rfl := spaceNumber_eq_msg h
    obtain ⟨e, he, h⟩ | ⟨hc, h⟩ := stbSpace_cases .msg idx d s <;> rw [h]
    · exact .refuse _ _ he
    · exact .storeMsg idx d hc
  next h =>
    obtain rfl := spaceNumber_eq_ecc h
    obtain ⟨e, he, h⟩ | ⟨hc, h⟩ := stbSpace_cases .ecc idx d s <;> rw [h]
    · exact .refuse _ _ he
    · exact .storeEcc idx d hc
  · exact .refuse _ _ (by decide)

theorem ldBody_effect (space : BitVec 4) (idx : Half) (s : State) : Effect s (.ld space idx) (ldBody space idx s) := by
  unfold ldBody
  split
  · exact .refuse _ _ (by decide)
  next sp h =>
    split
    · exact .refuse _ _ (by decide)
    · split
      · exact .refuse _ _ (by decide)
      · exact .readSpace space idx sp h

theorem encodeBody_effect (s : State) : Effect s .encode (encodeBody s) := by
  unfold encodeBody
  split
  · exact .refuse _ _ (by decide)
  next hc => exact .encode (not_not.1 hc)

/-- A decoder command refuses with `BadSequence`, or its body runs in the state it requires (R151). -/
theorem inCode_effect {i : Instr} {s : State} (required : Option Stage) (body : Result)
    (h : s.cfgstate = .code → (∀ st, required = some st → s.stage = st) → Effect s i body) :
    Effect s i (s.inCode required body) := by
  rw [State.inCode_eq]
  split
  next hp => exact h hp.1 hp.2
  · exact .refuse _ _ (by decide)

theorem decodeBody_effect {s : State} (hc : s.cfgstate = .code) : Effect s .decode (decodeBody s) := by
  obtain ⟨hz, h⟩ | ⟨-, hl, h⟩ | ⟨-, hl, hn, h⟩ | ⟨-, hl, hn, h⟩ := decodeBody_cases s <;> rw [h]
  · exact .decodeClean hc hz
  · exact .decodeNoLocator hc hl
  · exact .decodeNoRoots hc hl hn
  · exact .decodeCorrect hc hl hn

theorem bmsolveBody_effect {s : State} (hc : s.cfgstate = .code) (hst : s.stage = .synd) :
    Effect s .bmsolve (bmsolveBody s) := by
  obtain ⟨hl, h⟩ | ⟨hl, h⟩ := bmsolveBody_cases s <;> rw [h]
  · exact .locator hc hst hl
  · exact .noLocator hc hst hl

theorem chienBody_effect {s : State} (hc : s.cfgstate = .code) (hst : s.stage = .locator) :
    Effect s .chien (chienBody s) := by
  obtain ⟨hn, h⟩ | ⟨hn, h⟩ := chienBody_cases s <;> rw [h]
  · exact .roots hc hst hn
  · exact .noRoots hc hst hn

/-- Every command does what `Effect` lists. -/
theorem commandBody_effect (i : Instr) (s : State) : Effect s i (commandBody i s) := by
  cases i with
  | nop => exact .nop
  | clear => exact .clear
  | wrcsr csr v => exact wrcsrBody_effect csr v s
  | rdcsr csr => exact rdcsrBody_effect csr s
  | gfbuild => exact gfbuildBody_effect s
  | derive => exact deriveBody_effect s
  | gfli rd v => exact gfliBody_effect rd v s
  | gfrd r => exact gfrdBody_effect r s
  | gfadd rd a b => exact gfWrite_effect _ (.add rd a b)
  | gfmul rd a b => exact gfWrite_effect _ (.mul rd a b)
  | gfdiv rd a b => exact gfdivBody_effect rd a b s
  | gflog rd a => exact gfWrite_effect _ (.log rd a)
  | gfalog rd a => exact gfWrite_effect _ (.antilog rd a)
  | stb space idx d => exact stbBody_effect space idx d s
  | ld space idx => exact ldBody_effect space idx s
  | encode => exact encodeBody_effect s
  | decode => exact inCode_effect none (decodeBody s) fun hc _ => decodeBody_effect hc
  | synd => exact inCode_effect none (.ok (syndBody s).flags (syndBody s)) fun hc _ => .synd hc
  | bmsolve => exact inCode_effect (some .synd) (bmsolveBody s) fun hc hst => bmsolveBody_effect hc (hst _ rfl)
  | chien => exact inCode_effect (some .locator) (chienBody s) fun hc hst => chienBody_effect hc (hst _ rfl)
  | correct => exact inCode_effect (some .roots) (.ok s.nerr (correctBody s)) fun hc hst => .correct hc (hst _ rfl)

/-- A command's next state is the report of a result that `Effect` lists. -/
theorem exec_effect {i : Instr} {s t : State} (h : exec i s = .next t) :
    ∃ r, Effect s i r ∧ t = r.state.report r.code r.data :=
  ⟨_, commandBody_effect i s, exec_next_iff.1 h⟩

end Sys2Proof.Machine
end

section
/-! Which command changes what: the frame statements, each read off the ways a command can end (`exec_effect`). -/

namespace Sys2Proof.Machine

/-- Settles O1, register by register. -/
theorem resetClearsEveryControlRegister : Obligations.ResetClearsEveryControlRegister := by
  refine ⟨fun c => ?_, rfl, rfl, rfl⟩
  cases c <;> rfl

/-- Settles O13: the shared end of a command writes the response and `LASTERR` together. -/
theorem everyResponseCarriesItsCode : Obligations.EveryResponseCarriesItsCode := by
  intro i s t h
  rw [exec_next_iff.1 h]
  exact (commandBody i s).report_statusOk

/-! ## CFGSTATE -/

/-- `CLEAR` always completes, with the reset value everywhere (R83). -/
theorem exec_clear (s : State) : exec .clear s = .next (s.clear.report 0 0) := rfl

/-- What a result does to `CFGSTATE`: nothing, or one of the three transitions of R17. -/
theorem Effect.cfgstate_cases {i : Instr} {s : State} {r : Result} (he : Effect s i r) :
    (r.state.cfgstate = s.cfgstate ∧ (r.code = 0 → i ≠ .gfbuild ∧ i ≠ .derive)) ∨
      (i = .gfbuild ∧ r.code = 0 ∧ s.cfgstate = .empty ∧ r.state.cfgstate = .field) ∨
      (i = .derive ∧ r.code = 0 ∧ s.cfgstate = .field ∧ r.state.cfgstate = .code) ∨
      (i = .clear ∧ r.state.cfgstate = .empty) := by
  cases he with
  | build A L hc => exact .inr (.inl ⟨rfl, rfl, hc, rfl⟩)
  | derive g hc => exact .inr (.inr (.inl ⟨rfl, rfl, hc, rfl⟩))
  | clear => exact .inr (.inr (.inr ⟨rfl, rfl⟩))
  | gfCompute i rd v hc ho => exact .inl ⟨rfl, fun _ => by cases ho <;> simp⟩
  | refuse i e => exact .inl ⟨rfl, fun h0 => absurd h0 e.code_ne_zero⟩
  | _ => exact .inl ⟨by simp [State.decodeRoots, State.decodeLocator], by simp⟩

/-- Settles O14. -/
theorem cfgstateTransitions : Obligations.CfgstateTransitions := by
  refine ⟨fun i s t h => ?_, fun s t h => ?_, fun s => ?_⟩
  · have hclear : i = .clear → t.cfgstate = .empty := by
      rintro rfl
      rw [exec_clear, Host.Outcome.next.injEq] at h
      rw [← h]; rfl
    obtain ⟨r, he, rfl⟩ := exec_effect h
    simp only [State.report_cfgstate, State.report_lasterr] at hclear ⊢
    obtain ⟨hs, hi⟩ | ⟨rfl, h0, hs, ht⟩ | ⟨rfl, h0, hs, ht⟩ | ⟨rfl, ht⟩ := he.cfgstate_cases
    · exact ⟨.inl hs, fun hb h0 => absurd hb (hi h0).1, fun hd h0 => absurd hd (hi h0).2, hclear⟩
    · simp [h0, hs, ht]
    · simp [h0, hs, ht]
    · simp [ht]
  · cases h; rfl
  · cases hc : s.cfgstate <;> simp [State.readCsr, hc, CfgState.value]

/-! ## The configuration -/

/-- The registers and tables `GFBUILD` makes (R40, first part). -/
structure SameField (s u : State) : Prop where
  m : u.m = s.m
  poly : u.poly = s.poly
  n : u.n = s.n
  prim : u.prim = s.prim
  log : u.log = s.log
  antilog : u.antilog = s.antilog

/-- The parameters and tables of the code (R40, second part). -/
structure SameCode (s u : State) : Prop where
  t : u.t = s.t
  k : u.k = s.k
  ebits : u.ebits = s.ebits
  ebytes : u.ebytes = s.ebytes
  kbytes : u.kbytes = s.kbytes
  gen : u.gen = s.gen
  mod8 : u.mod8 = s.mod8

/-- Only `CLEAR` gives up a configuration (R17). -/
theorem Effect.cfgstate_ne_empty {i : Instr} {s : State} {r : Result} (he : Effect s i r) (hi : i ≠ .clear)
    (hc : s.cfgstate ≠ .empty) : r.state.cfgstate ≠ .empty := by
  obtain ⟨h, -⟩ | ⟨-, -, -, h⟩ | ⟨-, -, -, h⟩ | ⟨h, -⟩ := he.cfgstate_cases
  · exact h ▸ hc
  · simp [h]
  · simp [h]
  · exact absurd h hi

/-- Once a field is built, only `CLEAR` touches it (R40). -/
theorem Effect.sameField {i : Instr} {s : State} {r : Result} (he : Effect s i r)
    (hc : s.cfgstate ≠ .empty) (hr : r.state.cfgstate ≠ .empty) : SameField s r.state := by
  cases he with
  | clear => exact absurd rfl hr
  | writeM csr v h => exact absurd h hc
  | writePoly csr v h => exact absurd h hc
  | build A L h => exact absurd h hc
  | _ => constructor <;> rfl

/-- Once a code is derived, only `CLEAR` touches it (R40). -/
theorem Effect.sameCode {i : Instr} {s : State} {r : Result} (he : Effect s i r)
    (hc : s.cfgstate = .code) (hr : r.state.cfgstate ≠ .empty) : SameCode s r.state := by
  cases he with
  | clear => exact absurd rfl hr
  | writeT csr v h => exact absurd hc h
  | writeK csr v h => exact absurd hc h
  | derive g h => simp [hc] at h
  | _ => constructor <;> rfl

/-- Settles O16. -/
theorem configurationLock : Obligations.ConfigurationLock := by
  intro i s t hi h
  obtain ⟨r, he, rfl⟩ := exec_effect h
  refine ⟨fun hc => ?_, fun hc => ?_⟩
  · have hne : s.cfgstate ≠ .empty := by simp [hc]
    have hf := he.sameField hne (he.cfgstate_ne_empty hi hne)
    have hk := he.sameCode hc (he.cfgstate_ne_empty hi hne)
    exact ⟨hf.m, hf.poly, hk.t, hk.k, hf.n, hf.prim, hk.ebits, hk.ebytes, hk.kbytes, hf.log, hf.antilog, hk.gen,
      hk.mod8⟩
  · have hne : s.cfgstate ≠ .empty := by simp [hc]
    have hf := he.sameField hne (he.cfgstate_ne_empty hi hne)
    exact ⟨hf.m, hf.poly, hf.n, hf.prim, hf.log, hf.antilog⟩

/-! ## The buffers and the decoder's results -/

/-- Settles O18: in every other way a command can end, the buffer is the same list. -/
theorem whoChangesTheBuffers : Obligations.WhoChangesTheBuffers := by
  intro i s t h
  obtain ⟨r, he, rfl⟩ := exec_effect h
  cases he <;> simp [State.decodeRoots, State.decodeLocator]

/-- Settles O19: in every other way a command can end, the result is the same. -/
theorem whoChangesTheDecoderResults : Obligations.WhoChangesTheDecoderResults := by
  intro i s t h
  obtain ⟨r, he, rfl⟩ := exec_effect h
  cases he <;> simp

end Sys2Proof.Machine
end

section
/-! What a command does not look at: with other contents of the port (R42), and for twelve commands with other contents
of the G registers (R26), the body of a command does the same. -/

namespace Sys2Proof.Machine

/-- The state with other contents of the port and of the G registers. -/
def State.overlay (s : State) (p : List PortEvent) (g : Vector Half 16) : State := { s with port := p, g := g }

/-- A result with its state changed. -/
def Result.map (f : State → State) (r : Result) : Result :=
  match r with
  | .ok d s => .ok d (f s)
  | .err e s => .err e (f s)

@[simp] theorem Result.map_ok (f : State → State) (d : Half) (s : State) : (Result.ok d s).map f = .ok d (f s) := rfl
@[simp] theorem Result.map_err (f : State → State) (e : Err) (s : State) : (Result.err e s).map f = .err e (f s) := rfl

/-- A conditional result, changed in both branches. -/
theorem Result.map_ite (f : State → State) (c : Prop) [Decidable c] (a b : Result) :
    (if c then a else b).map f = if c then a.map f else b.map f := apply_ite _ _ _ _

/-- Two changes that agree on the state of a result give the same result. -/
theorem Result.map_congr {f g : State → State} {r : Result} (h : f r.state = g r.state) : r.map f = r.map g := by
  cases r with
  | ok d s => exact congrArg (Result.ok d) h
  | err e s => exact congrArg (Result.err e) h

/-- If the body does the same on a changed state, so does the command: for a change that leaves the report alone. -/
theorem exec_of_body_map {i : Instr} {s s' t : State} {f : State → State} (h : exec i s = .next t)
    (hb : commandBody i s' = (commandBody i s).map f)
    (hf : ∀ u c d, State.report (f u) c d = f (u.report c d)) : exec i s' = .next (f t) := by
  rw [exec_next_iff.1 h, ← hf, exec_next_iff, hb]
  cases commandBody i s <;> rfl

/-- The commands that R26 says do not touch the G registers: the codec, buffer and CSR commands, `DERIVE` and `NOP`. -/
def IgnoresG (i : Instr) : Prop :=
  match i with
  | .encode | .decode | .synd | .bmsolve | .chien | .correct | .stb _ _ _ | .ld _ _ | .wrcsr _ _ | .rdcsr _
  | .derive | .nop => True
  | _ => False

/-- Those twelve commands leave the G registers alone. -/
theorem Effect.g_eq {i : Instr} {s : State} {r : Result} (he : Effect s i r) (hi : IgnoresG i) : r.state.g = s.g := by
  cases he with
  | clear | build | gfLoad => exact hi.elim
  | gfCompute i rd v hc ho => cases ho <;> exact hi.elim
  | _ => rfl

/-- No command takes anything off the port. -/
theorem Effect.port_eq {i : Instr} {s : State} {r : Result} (he : Effect s i r) : r.state.port = s.port := by
  cases he <;> rfl

section Overlay

variable (s : State) (p : List PortEvent) (g : Vector Half 16)

/-! ## The twelve commands that read neither the port nor a G register -/

theorem wrcsrBody_overlay (csr : BitVec 8) (v : Half) :
    wrcsrBody csr v (s.overlay p g) = (wrcsrBody csr v s).map (·.overlay p g) := by
  unfold wrcsrBody
  split
  · rw [Result.map_ite]; rfl
  · rw [Result.map_ite]; rfl
  · rw [Result.map_ite]; rfl
  · rw [Result.map_ite]; rfl
  · rfl

theorem rdcsrBody_overlay (csr : BitVec 8) : rdcsrBody csr (s.overlay p g) = (rdcsrBody csr s).map (·.overlay p g) := by
  unfold rdcsrBody
  split
  next r _ => cases r <;> rfl
  · rfl

theorem deriveBody_overlay : deriveBody (s.overlay p g) = (deriveBody s).map (·.overlay p g) := by
  unfold deriveBody
  simp only [Result.map_ite]
  rfl

theorem stbSpace_overlay {sp : Space} (h : sp = .msg ∨ sp = .ecc) (idx : BitVec 12) (d : Byte) :
    stbSpace sp idx d (s.overlay p g) = (stbSpace sp idx d s).map (·.overlay p g) := by
  unfold stbSpace
  simp only [Result.map_ite]
  obtain rfl | rfl := h <;> rfl

theorem stbBody_overlay (space : BitVec 4) (idx : BitVec 12) (d : Byte) :
    stbBody space idx d (s.overlay p g) = (stbBody space idx d s).map (·.overlay p g) := by
  unfold stbBody
  split
  · exact stbSpace_overlay s p g (.inl rfl) idx d
  · exact stbSpace_overlay s p g (.inr rfl) idx d
  · rfl

theorem ldBody_overlay (space : BitVec 4) (idx : Half) :
    ldBody space idx (s.overlay p g) = (ldBody space idx s).map (·.overlay p g) := by
  unfold ldBody
  split
  · rfl
  next sp _ =>
    simp only [Result.map_ite]
    cases sp <;> rfl

theorem encodeBody_overlay : encodeBody (s.overlay p g) = (encodeBody s).map (·.overlay p g) := by
  unfold encodeBody
  rw [Result.map_ite]
  rfl

theorem inCode_overlay (required : Option Stage) {body body' : Result} (h : body' = body.map (·.overlay p g)) :
    (s.overlay p g).inCode required body' = (s.inCode required body).map (·.overlay p g) := by
  rw [State.inCode_eq, State.inCode_eq, Result.map_ite, h]
  rfl

theorem syndBody_overlay : syndBody (s.overlay p g) = (syndBody s).overlay p g := rfl

theorem correctBody_overlay : correctBody (s.overlay p g) = (correctBody s).overlay p g := rfl

theorem bmsolveBody_overlay : bmsolveBody (s.overlay p g) = (bmsolveBody s).map (·.overlay p g) := by
  unfold bmsolveBody
  rw [Result.map_ite]
  rfl

theorem chienBody_overlay : chienBody (s.overlay p g) = (chienBody s).map (·.overlay p g) := by
  unfold chienBody
  rw [Result.map_ite]
  rfl

theorem decodeBody_overlay : decodeBody (s.overlay p g) = (decodeBody s).map (·.overlay p g) := by
  unfold decodeBody
  rw [Result.map_ite, syndBody_overlay, bmsolveBody_overlay]
  congr 1
  cases bmsolveBody (syndBody s) with
  | err e s2 => rfl
  | ok d s2 =>
    simp only [Result.map_ok, chienBody_overlay]
    cases chienBody s2 <;> rfl

/-- Those commands do the same whatever stands on the port and in the G registers. -/
theorem commandBody_overlay {i : Instr} (hi : IgnoresG i) :
    commandBody i (s.overlay p g) = (commandBody i s).map (·.overlay p g) := by
  cases i with
  | nop => rfl
  | wrcsr csr v => exact wrcsrBody_overlay s p g csr v
  | rdcsr csr => exact rdcsrBody_overlay s p g csr
  | derive => exact deriveBody_overlay s p g
  | stb space idx d => exact stbBody_overlay s p g space idx d
  | ld space idx => exact ldBody_overlay s p g space idx
  | encode => exact encodeBody_overlay s p g
  | decode => exact inCode_overlay s p g none (decodeBody_overlay s p g)
  | synd => exact inCode_overlay s p g none (body := .ok (syndBody s).flags (syndBody s)) rfl
  | bmsolve => exact inCode_overlay s p g (some .synd) (bmsolveBody_overlay s p g)
  | chien => exact inCode_overlay s p g (some .locator) (chienBody_overlay s p g)
  | correct => exact inCode_overlay s p g (some .roots) (body := .ok s.nerr (correctBody s)) rfl
  | _ => exact hi.elim

/-! ## Every command, on other contents of the port alone -/

theorem gfWrite_withPort (rd : GReg) (vs : List Half) (v : Half) :
    State.gfWrite { s with port := p } rd vs v = (s.gfWrite rd vs v).map ({ · with port := p }) := by
  rw [State.gfWrite_eq, State.gfWrite_eq, show State.gfCheck { s with port := p } vs = s.gfCheck vs from rfl]
  cases s.gfCheck vs <;> rfl

theorem gfliBody_withPort (rd : GReg) (v : Half) :
    gfliBody rd v { s with port := p } = (gfliBody rd v s).map ({ · with port := p }) := by
  unfold gfliBody
  rw [show State.gfCheck { s with port := p } [v] = s.gfCheck [v] from rfl]
  cases s.gfCheck [v] <;> rfl

theorem gfrdBody_withPort (r : GReg) :
    gfrdBody r { s with port := p } = (gfrdBody r s).map ({ · with port := p }) := by
  unfold gfrdBody
  rw [show State.gfCheck { s with port := p } [State.readG { s with port := p } r] = s.gfCheck [s.readG r] from rfl]
  cases s.gfCheck [s.readG r] <;> rfl

theorem gfdivBody_withPort (rd a b : GReg) :
    gfdivBody rd a b { s with port := p } = (gfdivBody rd a b s).map ({ · with port := p }) := by
  unfold gfdivBody
  rw [show State.gfCheck { s with port := p } [State.readG { s with port := p } a, State.readG { s with port := p } b] =
    s.gfCheck [s.readG a, s.readG b] from rfl]
  cases s.gfCheck [s.readG a, s.readG b] with
  | some e => rfl
  | none => simp only [Result.map_ite]; rfl

theorem gfbuildBody_withPort : gfbuildBody { s with port := p } = (gfbuildBody s).map ({ · with port := p }) := by
  unfold gfbuildBody
  simp only [Result.map_ite]
  rw [show State.polyInUse { s with port := p } = s.polyInUse from rfl]
  cases buildField s.m.toNat s.polyInUse <;> rfl

/-- No command depends on what is still on the port (R42, R143). -/
theorem commandBody_withPort (i : Instr) :
    commandBody i { s with port := p } = (commandBody i s).map ({ · with port := p }) := by
  have hother : IgnoresG i → commandBody i { s with port := p } = (commandBody i s).map ({ · with port := p }) :=
    fun hi => (commandBody_overlay s p s.g hi).trans
      (Result.map_congr (by rw [State.overlay, (commandBody_effect i s).g_eq hi]))
  cases i with
  | clear => rfl
  | gfbuild => exact gfbuildBody_withPort s p
  | gfli rd v => exact gfliBody_withPort s p rd v
  | gfrd r => exact gfrdBody_withPort s p r
  | gfadd rd a b => exact gfWrite_withPort s p rd _ _
  | gfmul rd a b => exact gfWrite_withPort s p rd _ _
  | gfdiv rd a b => exact gfdivBody_withPort s p rd a b
  | gflog rd a => exact gfWrite_withPort s p rd _ _
  | gfalog rd a => exact gfWrite_withPort s p rd _ _
  | _ => exact hother trivial

end Overlay

/-- Settles O17. -/
theorem otherCommandsIgnoreTheGRegisters : Obligations.OtherCommandsIgnoreTheGRegisters := by
  intro i hi s t h
  have hi : IgnoresG i := by cases i <;> exact hi
  have hport : t.port = s.port := by
    obtain ⟨r, he, rfl⟩ := exec_effect h
    exact he.port_eq
  refine ⟨?_, fun g' => ?_⟩
  · obtain ⟨r, he, rfl⟩ := exec_effect h
    exact he.g_eq hi
  · have hg := exec_of_body_map h (commandBody_overlay s s.port g' hi) fun _ _ _ => rfl
    exact hg.trans (by rw [State.overlay, ← hport])

/-- Settles O20. -/
theorem commandsIgnoreThePort : Obligations.CommandsIgnoreThePort := by
  intro i s t h
  refine ⟨?_, fun p => exec_of_body_map h (commandBody_withPort s p i) fun _ _ _ => rfl⟩
  obtain ⟨r, he, rfl⟩ := exec_effect h
  exact he.port_eq

end Sys2Proof.Machine
end

section
/-! The tables that `GFBUILD` builds (R27, R28, R86): the powers of α, how the loop of R86 stores them, and that a
successful build meets `TablesOk`. -/

namespace Sys2Proof.Machine

/-! ## The powers of α -/

/-- The polynomials of degree exactly m, as numbers. -/
theorem two_pow_le_of_degree {m P : Nat} (hP : P >>> m = 1) : 2 ^ m ≤ P := by
  rw [Nat.shiftRight_eq_div_pow] at hP
  by_contra h
  rw [Nat.div_eq_of_lt (by omega)] at hP
  omega

theorem lt_two_pow_of_degree {m P : Nat} (hP : P >>> m = 1) : P < 2 ^ (m + 1) := by
  rw [Nat.shiftRight_eq_div_pow, Nat.div_eq_iff (by positivity)] at hP
  have := Nat.two_pow_pos m
  omega

/-- Multiplication by α stays within m bits (R86). -/
theorem timesAlpha_lt {m P x : Nat} (hP : P >>> m = 1) (hx : x < 2 ^ m) : timesAlpha m P x < 2 ^ m := by
  have hx2 : x <<< 1 < 2 ^ (m + 1) := by rw [Nat.shiftLeft_eq, pow_succ]; omega
  have hPm : P.testBit m = true := by rw [Nat.testBit, hP]; rfl
  unfold timesAlpha
  split
  next hb =>
    refine Nat.lt_pow_two_of_testBit _ fun j hj => ?_
    rw [Nat.testBit_xor]
    obtain rfl | hj := hj.eq_or_lt
    · rw [hb, hPm]; rfl
    · have h2 : 2 ^ (m + 1) ≤ 2 ^ j := Nat.pow_le_pow_right (by decide) hj
      rw [Nat.testBit_lt_two_pow (hx2.trans_le h2), Nat.testBit_lt_two_pow ((lt_two_pow_of_degree hP).trans_le h2)]
      rfl
  next hb =>
    refine Nat.lt_pow_two_of_testBit _ fun j hj => ?_
    obtain rfl | hj := hj.eq_or_lt
    · simpa using hb
    · exact Nat.testBit_lt_two_pow (hx2.trans_le (Nat.pow_le_pow_right (by decide) hj))

/-- Bit 0 after a multiplication by α: that of P if P was subtracted, else 0. -/
theorem timesAlpha_testBit_zero (m P x : Nat) :
    (timesAlpha m P x).testBit 0 = ((x <<< 1).testBit m && P.testBit 0) := by
  have h0 : (x <<< 1).testBit 0 = false := by simp
  unfold timesAlpha
  split
  next hb => rw [Nat.testBit_xor, h0, hb, Bool.false_xor, Bool.true_and]
  next hb => rw [h0, Bool.eq_false_of_not_eq_true hb, Bool.false_and]

/-- Multiplication by α is injective when P has a constant term. -/
theorem timesAlpha_inj {m P x y : Nat} (hodd : P.testBit 0 = true) (h : timesAlpha m P x = timesAlpha m P y) :
    x = y := by
  have hbit : (x <<< 1).testBit m = (y <<< 1).testBit m := by
    have hz := congrArg (Nat.testBit · 0) h
    simpa only [timesAlpha_testBit_zero, hodd, Bool.and_true] using hz
  have hshift : x <<< 1 = y <<< 1 := by
    unfold timesAlpha at h
    rw [hbit] at h
    split at h
    · exact Nat.xor_left_injective h
    · exact h
  simpa [Nat.shiftLeft_eq] using hshift

@[simp] theorem alphaPow_zero (m P : Nat) : alphaPow m P 0 = 1 := rfl

theorem alphaPow_succ (m P i : Nat) : alphaPow m P (i + 1) = timesAlpha m P (alphaPow m P i) := rfl

/-- The powers of α are elements of the field. -/
theorem alphaPow_lt {m P : Nat} (hP : P >>> m = 1) (hm : 1 ≤ m) (i : Nat) : alphaPow m P i < 2 ^ m := by
  induction i with
  | zero => exact Nat.one_lt_two_pow (by omega)
  | succ i ih => exact timesAlpha_lt hP ih

/-- If some later power of α is 1 again, P has a constant term. -/
theorem odd_of_alphaPow_eq_one {m P i : Nat} (hi : 0 < i) (h : alphaPow m P i = 1) : P.testBit 0 = true := by
  obtain ⟨j, rfl⟩ := Nat.exists_eq_add_of_lt hi
  rw [zero_add, alphaPow_succ] at h
  have hb := timesAlpha_testBit_zero m P (alphaPow m P j)
  rw [h] at hb
  simp at hb
  simpa using hb.2

/-- Equal powers of α differ by a power that is 1. -/
theorem alphaPow_sub_eq_one {m P i j : Nat} (hodd : P.testBit 0 = true) (h : alphaPow m P i = alphaPow m P (i + j)) :
    alphaPow m P j = 1 := by
  induction i with
  | zero => rw [zero_add] at h; exact h.symm
  | succ i ih => rw [Nat.add_right_comm] at h; exact ih (timesAlpha_inj hodd h)

section PrimitivePoly

variable {m P : Nat} (hP : P >>> m = 1) (hm : 2 ≤ m) (hprim : Primitive m P)

theorem three_le_order (hm : 2 ≤ m) : 3 ≤ 2 ^ m - 1 := by
  have : 2 ^ 2 ≤ 2 ^ m := Nat.pow_le_pow_right (by decide) hm
  omega

include hm hprim in
theorem Primitive.odd : P.testBit 0 = true :=
  odd_of_alphaPow_eq_one (by have := three_le_order hm; omega) hprim.at_n

include hm hprim in
/-- Below n the powers of α are distinct. -/
theorem Primitive.alphaPow_inj {i j : Nat} (hi : i < 2 ^ m - 1) (hj : j < 2 ^ m - 1)
    (h : alphaPow m P i = alphaPow m P j) : i = j := by
  wlog hij : i ≤ j generalizing i j
  · exact (this hj hi h.symm (by omega)).symm
  obtain ⟨d, rfl⟩ := Nat.exists_eq_add_of_le hij
  have hd := alphaPow_sub_eq_one (hprim.odd hm) h
  by_contra hne
  exact hprim.not_before d (by omega) (by omega) hd

include hprim in
/-- No power of α is 0: α^n = 1 comes after it, and 0 stays 0. -/
theorem Primitive.alphaPow_ne_zero (i : Nat) (hi : i ≤ 2 ^ m - 1) : alphaPow m P i ≠ 0 := by
  intro h0
  have hstay : ∀ d, alphaPow m P (i + d) = 0 := by
    intro d
    induction d with
    | zero => exact h0
    | succ d ih => rw [← Nat.add_assoc, alphaPow_succ, ih]; simp [timesAlpha]
  have hn := hprim.at_n
  rw [← Nat.add_sub_cancel' hi, hstay] at hn
  exact absurd hn (by decide)

include hP hm hprim in
/-- Every nonzero element is a power of α below n: there are n of each. -/
theorem Primitive.exists_alphaPow {x : Nat} (h1 : 1 ≤ x) (hx : x ≤ 2 ^ m - 1) :
    ∃ e, e < 2 ^ m - 1 ∧ alphaPow m P e = x := by
  have hmaps : ∀ e ∈ Finset.range (2 ^ m - 1), alphaPow m P e ∈ Finset.Icc 1 (2 ^ m - 1) := by
    intro e he
    have hlt := alphaPow_lt hP (by omega) e
    have hne := hprim.alphaPow_ne_zero e (by have := Finset.mem_range.1 he; omega)
    exact Finset.mem_Icc.2 ⟨by omega, by omega⟩
  have hinj : Set.InjOn (alphaPow m P) (Finset.range (2 ^ m - 1)) := fun i hi j hj h =>
    hprim.alphaPow_inj hm (Finset.mem_range.1 hi) (Finset.mem_range.1 hj) h
  have hsurj := Finset.surjOn_of_injOn_of_card_le (alphaPow m P) hmaps hinj (by simp)
  obtain ⟨e, he, hex⟩ := hsurj (Finset.mem_coe.2 (Finset.mem_Icc.2 ⟨h1, hx⟩))
  exact ⟨e, Finset.mem_range.1 he, hex⟩

end PrimitivePoly

/-! ## The loop of R86 -/

/-- A table read where it was written last. -/
theorem getD_setIfInBounds_same (a : Array Half) {i : Nat} (v : Half) (h : i < a.size) :
    (a.setIfInBounds i v).getD i 0 = v := by simp [Array.getD_eq_getD_getElem?, h]

/-- A table read elsewhere. -/
theorem getD_setIfInBounds_ne (a : Array Half) {i j : Nat} (v : Half) (h : i ≠ j) :
    (a.setIfInBounds i v).getD j 0 = a.getD j 0 := by simp [Array.getD_eq_getD_getElem?, h]

/-- What a finished loop says of the powers of α it went through, and of the element it ends with. -/
theorem buildLoop_powers {m P : Nat} {steps i x y : Nat} {A L A' L' : Array Half} (hx : x = alphaPow m P i)
    (h : buildLoop m P steps i x A L = some (y, A', L')) :
    y = alphaPow m P (i + steps) ∧ ∀ j, 0 < j → i ≤ j → j < i + steps → alphaPow m P j ≠ 1 := by
  induction steps generalizing i x A L with
  | zero =>
    simp only [buildLoop, Option.some.injEq, Prod.mk.injEq] at h
    exact ⟨h.1 ▸ hx, fun j _ _ _ => by omega⟩
  | succ steps ih =>
    rw [buildLoop] at h
    split at h
    · exact absurd h (by simp)
    next hone =>
    obtain ⟨hy, hne⟩ := ih (by rw [hx, alphaPow_succ]) h
    refine ⟨by rw [hy]; congr 1; omega, fun j h0 hij hj h1 => ?_⟩
    obtain rfl | hij := hij.eq_or_lt
    · exact hone ⟨h0, hx.trans h1⟩
    · exact hne j h0 hij (by omega) h1

/-- The antilogarithm table after the loop: each power it went through at its index, the rest as before. -/
theorem buildLoop_antilog {m P : Nat} {steps i x y : Nat} {A L A' L' : Array Half} (hx : x = alphaPow m P i)
    (h : buildLoop m P steps i x A L = some (y, A', L')) :
    A'.size = A.size ∧ ∀ j, j < A.size →
      A'.getD j 0 = if i ≤ j ∧ j < i + steps then BitVec.ofNat 16 (alphaPow m P j) else A.getD j 0 := by
  induction steps generalizing i x A L with
  | zero =>
    simp only [buildLoop, Option.some.injEq, Prod.mk.injEq] at h
    obtain ⟨-, rfl, -⟩ := h
    exact ⟨rfl, fun j _ => by rw [if_neg (by omega)]⟩
  | succ steps ih =>
    rw [buildLoop] at h
    split at h
    · exact absurd h (by simp)
    obtain ⟨hsize, hget⟩ := ih (by rw [hx, alphaPow_succ]) h
    rw [Array.size_setIfInBounds] at hsize hget
    refine ⟨hsize, fun j hj => ?_⟩
    rw [hget j hj]
    by_cases hij : i = j
    · subst hij
      rw [if_neg (by omega), if_pos (by omega), getD_setIfInBounds_same A _ hj, hx]
    · rw [getD_setIfInBounds_ne A _ hij]
      exact if_congr (by omega) rfl rfl

/-- The logarithm table after the loop: as before where no power it went through points. -/
theorem buildLoop_log_other {m P : Nat} {steps i x y : Nat} {A L A' L' : Array Half} (hx : x = alphaPow m P i)
    (h : buildLoop m P steps i x A L = some (y, A', L')) :
    L'.size = L.size ∧ ∀ v, (∀ j, i ≤ j → j < i + steps → alphaPow m P j ≠ v) → L'.getD v 0 = L.getD v 0 := by
  induction steps generalizing i x A L with
  | zero =>
    simp only [buildLoop, Option.some.injEq, Prod.mk.injEq] at h
    obtain ⟨-, -, rfl⟩ := h
    exact ⟨rfl, fun _ _ => rfl⟩
  | succ steps ih =>
    rw [buildLoop] at h
    split at h
    · exact absurd h (by simp)
    obtain ⟨hsize, hget⟩ := ih (by rw [hx, alphaPow_succ]) h
    rw [Array.size_setIfInBounds] at hsize
    refine ⟨hsize, fun v hv => ?_⟩
    rw [hget v fun j hij hj => hv j (by omega) (by omega)]
    exact getD_setIfInBounds_ne L _ (hx ▸ hv i le_rfl (by omega))

/-- The logarithm table after the loop: the index of a power it went through stands at that power. -/
theorem buildLoop_log {m P : Nat} {steps i x y : Nat} {A L A' L' : Array Half} (hx : x = alphaPow m P i)
    (h : buildLoop m P steps i x A L = some (y, A', L')) {j : Nat} (hij : i ≤ j) (hj : j < i + steps)
    (hlt : alphaPow m P j < L.size)
    (hlast : ∀ k, j < k → k < i + steps → alphaPow m P k ≠ alphaPow m P j) :
    L'.getD (alphaPow m P j) 0 = BitVec.ofNat 16 j := by
  induction steps generalizing i x A L with
  | zero => omega
  | succ steps ih =>
    rw [buildLoop] at h
    split at h
    · exact absurd h (by simp)
    have hx' : timesAlpha m P x = alphaPow m P (i + 1) := by rw [hx, alphaPow_succ]
    obtain rfl | hij := hij.eq_or_lt
    · rw [(buildLoop_log_other hx' h).2 _ fun k hk hk' => hlast k (by omega) (by omega), hx]
      exact getD_setIfInBounds_same L _ hlt
    · exact ih hx' h hij (by omega) (by simpa using hlt) fun k hk hk' => hlast k hk (by omega)

/-! ## The finished tables -/

/-- What a successful `buildfield` is: a finished loop that came back to 1, and the last entry of each table (R86). -/
theorem buildField_eq_some {m P : Nat} {A L : Array Half} (h : buildField m P = some (A, L)) :
    ∃ A' L', buildLoop m P (2 ^ m - 1) 0 1 (Array.replicate (2 ^ m) 0) (Array.replicate (2 ^ m) 0) = some (1, A', L') ∧
      A = A'.setIfInBounds (2 ^ m - 1) 1 ∧ L = L'.setIfInBounds 0 (BitVec.ofNat 16 (2 ^ m - 1)) := by
  unfold buildField at h
  split at h
  · exact absurd h (by simp)
  next x A' L' hl =>
  split at h
  · exact absurd h (by simp)
  next hx =>
  obtain rfl := not_not.1 hx
  simp only [Option.some.injEq, Prod.mk.injEq] at h
  exact ⟨A', L', hl, h.1.symm, h.2.symm⟩

/-- A successful build is the test of R86 passed. -/
theorem primitive_of_buildField {m P : Nat} {A L : Array Half} (h : buildField m P = some (A, L)) : Primitive m P := by
  obtain ⟨A', L', hl, -, -⟩ := buildField_eq_some h
  obtain ⟨hy, hne⟩ := buildLoop_powers (alphaPow_zero m P).symm hl
  rw [zero_add] at hy hne
  exact { not_before := fun i h0 hi => hne i h0 (Nat.zero_le i) hi, at_n := hy.symm }

/-- The entries of the tables of a successful build (R27). -/
structure TableEntries (m P : Nat) (F : GfTables) : Prop where
  n_eq : F.n = 2 ^ m - 1
  antilog_size : F.antilog.size = 2 ^ m
  log_size : F.log.size = 2 ^ m
  antilog : ∀ i, i < F.n → F.antilogAt i = BitVec.ofNat 16 (alphaPow m P i)
  antilog_top : F.antilogAt F.n = 1
  log : ∀ e, e < F.n → F.logAt (alphaPow m P e) = BitVec.ofNat 16 e
  log_zero : F.logAt 0 = BitVec.ofNat 16 F.n

theorem tableEntries_of_buildField {m P : Nat} {A L : Array Half} (hP : P >>> m = 1) (hm : 2 ≤ m)
    (h : buildField m P = some (A, L)) : TableEntries m P { n := 2 ^ m - 1, log := L, antilog := A } := by
  have hprim := primitive_of_buildField h
  have hn := three_le_order hm
  obtain ⟨A', L', hl, rfl, rfl⟩ := buildField_eq_some h
  obtain ⟨hAsize, hA⟩ := buildLoop_antilog (alphaPow_zero m P).symm hl
  obtain ⟨hLsize, -⟩ := buildLoop_log_other (alphaPow_zero m P).symm hl
  rw [Array.size_replicate] at hAsize hA hLsize
  constructor
  case n_eq => rfl
  case antilog_size => simpa using hAsize
  case log_size => simpa using hLsize
  case antilog =>
    intro i hi
    have hi : i < 2 ^ m - 1 := hi
    rw [GfTables.antilogAt, getD_setIfInBounds_ne A' 1 hi.ne', hA i (by omega), if_pos (by omega)]
  case antilog_top => exact getD_setIfInBounds_same A' 1 (by dsimp only; omega)
  case log =>
    intro e he
    have he : e < 2 ^ m - 1 := he
    rw [GfTables.logAt, getD_setIfInBounds_ne L' _ (hprim.alphaPow_ne_zero e he.le).symm]
    refine buildLoop_log (alphaPow_zero m P).symm hl (Nat.zero_le e) (by omega) ?_ fun k hk hk' heq => ?_
    · simpa using alphaPow_lt hP (by omega) e
    · exact absurd (hprim.alphaPow_inj hm (by omega) he heq) (by omega)
  case log_zero => exact getD_setIfInBounds_same L' _ (by omega)

/-- Those entries, for a primitive polynomial of degree m, are the tables of R27 and R28. -/
theorem TableEntries.tablesOk {m P : Nat} {F : GfTables} (he : TableEntries m P F) (hP : P >>> m = 1) (hm : 2 ≤ m)
    (hm' : m ≤ 15) (hprim : Primitive m P) : TablesOk m P F := by
  have hn := he.n_eq
  have hpow : 2 ^ m ≤ 2 ^ 15 := Nat.pow_le_pow_right (by decide) hm'
  have hpos := three_le_order hm
  have hnat : ∀ x, x < 2 ^ m → (BitVec.ofNat 16 x).toNat = x := fun x hx => by
    rw [BitVec.toNat_ofNat]; exact Nat.mod_eq_of_lt (by omega)
  have hanti : ∀ i, i < F.n → (F.antilogAt i).toNat = alphaPow m P i := fun i hi => by
    rw [he.antilog i hi, hnat _ (alphaPow_lt hP (by omega) i)]
  have hlog : ∀ e, e < F.n → (F.logAt (alphaPow m P e)).toNat = e := fun e hlt => by
    rw [he.log e hlt, hnat e (by omega)]
  have hsurj : ∀ x, 1 ≤ x → x ≤ F.n → ∃ e, e < F.n ∧ alphaPow m P e = x := fun x h1 hx =>
    hn ▸ hprim.exists_alphaPow hP hm h1 (hn ▸ hx)
  constructor
  case m_lo => exact hm
  case m_hi => exact hm'
  case degree => exact hP
  case n_eq => exact hn
  case antilog_size => exact he.antilog_size
  case log_size => exact he.log_size
  case antilog_eq => exact hanti
  case antilog_top => exact he.antilog_top
  case log_zero => rw [he.log_zero, hnat _ (by omega)]
  case antilog_log =>
    intro x h1 hx
    obtain ⟨e, hlt, rfl⟩ := hsurj x h1 hx
    rw [hlog e hlt, hanti e hlt]
  case log_antilog =>
    intro e hlt
    rw [hanti e hlt, hlog e hlt]
  case antilog_ne =>
    intro e hle h0
    obtain rfl | hlt := hle.eq_or_lt
    · rw [he.antilog_top] at h0
      exact absurd h0 (by decide)
    · have hz := hanti e hlt
      rw [h0] at hz
      exact hprim.alphaPow_ne_zero e (by omega) hz.symm
  case log_lt =>
    intro x h1 hx
    obtain ⟨e, hlt, rfl⟩ := hsurj x h1 hx
    rwa [hlog e hlt]

/-- A successful build gives the tables of R27 and R28. -/
theorem tablesOk_of_buildField {m P : Nat} {A L : Array Half} (hP : P >>> m = 1) (hm : 2 ≤ m) (hm' : m ≤ 15)
    (h : buildField m P = some (A, L)) : TablesOk m P { n := 2 ^ m - 1, log := L, antilog := A } :=
  (tableEntries_of_buildField hP hm h).tablesOk hP hm hm' (primitive_of_buildField h)

/-! ## The field functions stay in the field (R99) -/

section InField

variable {m P : Nat} {F : GfTables}

/-- Every entry of the antilogarithm table is an element. -/
theorem TablesOk.elem_antilogAt (h : TablesOk m P F) {e : Nat} (he : e ≤ F.n) : F.elem (F.antilogAt e) := by
  obtain rfl | hlt := he.eq_or_lt
  · rw [h.antilog_top]
    have := three_le_order h.m_lo
    have := h.n_eq
    show (1 : Half).toNat ≤ F.n
    simp; omega
  · have := alphaPow_lt h.degree (show 1 ≤ m by have := h.m_lo; omega) e
    have := h.antilog_eq e hlt
    have := h.n_eq
    show (F.antilogAt e).toNat ≤ F.n
    omega

theorem TablesOk.n_pos (h : TablesOk m P F) : 0 < F.n := by
  have := three_le_order h.m_lo
  have := h.n_eq
  omega

/-- Every power of α is an element (R95). -/
theorem TablesOk.elem_pow (h : TablesOk m P F) (e : Nat) : F.elem (F.antilogAt (e % F.n)) :=
  h.elem_antilogAt (Nat.mod_lt e h.n_pos).le

/-- The logarithm of an element is an element: below n, or the sentinel n (R28 (d)). -/
theorem TablesOk.elem_logAt (h : TablesOk m P F) {v : Nat} (hv : v ≤ F.n) : F.elem (F.logAt v) := by
  obtain rfl | hpos := Nat.eq_zero_or_pos v
  · exact h.log_zero.le
  · exact (h.log_lt v hpos hv).le

/-- The sum of two elements is an element (R94). -/
theorem TablesOk.elem_gfAdd (h : TablesOk m P F) {a b : Half} (ha : F.elem a) (hb : F.elem b) : F.elem (gfAdd a b) := by
  have hn := h.n_eq
  have hpos := Nat.two_pow_pos m
  have hx : a.toNat ^^^ b.toNat < 2 ^ m := Nat.xor_lt_two_pow (by omega) (by omega)
  show (a ^^^ b).toNat ≤ F.n
  rw [BitVec.toNat_xor]
  omega

theorem GfTables.elem_zero (F : GfTables) : F.elem 0 := Nat.zero_le _

/-- A product is an element (R96). -/
theorem TablesOk.elem_mul (h : TablesOk m P F) (a b : Half) : F.elem (F.mul a b) := by
  unfold GfTables.mul
  split
  · exact F.elem_zero
  · exact h.elem_pow _

/-- A quotient is an element (R97). -/
theorem TablesOk.elem_div (h : TablesOk m P F) (a b : Half) : F.elem (F.div a b) := by
  unfold GfTables.div
  split
  · exact F.elem_zero
  · exact h.elem_pow _

end InField

/-- What a computing GF command writes is an element, if its sources are (R99). -/
theorem GfOutput.elem {s : State} {i : Instr} {rd : GReg} {v : Half} (h : GfOutput s i rd v) (hf : FieldOk s) :
    s.tables.elem v := by
  cases h with
  | add rd a b => exact hf.tables.elem_gfAdd (hf.regs a) (hf.regs b)
  | mul rd a b => exact hf.tables.elem_mul _ _
  | div rd a b => exact hf.tables.elem_div _ _
  | log rd a => exact hf.tables.elem_logAt (hf.regs a)
  | antilog rd a => exact hf.tables.elem_antilogAt (hf.regs a)

end Sys2Proof.Machine
end

section
/-! The generator polynomial (R89): carry-less products add degrees, a minimal polynomial is monic of the size of its
coset, so the product is not 0 and has degree at least 1. -/

namespace Sys2Proof.Machine

/-! ## Carry-less products -/

/-- A number below a power of two, with the bit below that power set. -/
theorem log2_eq_of_bounds {x e : Nat} (hlo : 2 ^ e ≤ x) (hhi : x < 2 ^ (e + 1)) : x ≠ 0 ∧ x.log2 = e := by
  have hx : x ≠ 0 := by have := Nat.two_pow_pos e; omega
  exact ⟨hx, (Nat.log2_eq_iff hx).2 ⟨hlo, hhi⟩⟩

/-- The running sums of `clmul`: the first `k` bits of `b` (R89). -/
def clmulPart (a b k : Nat) : Nat :=
  (List.range k).foldl (fun acc j => if b.testBit j then acc ^^^ (a <<< j) else acc) 0

theorem clmul_eq (a b : Nat) : clmul a b = clmulPart a b (b.log2 + 1) := rfl

theorem clmulPart_succ (a b k : Nat) :
    clmulPart a b (k + 1) = if b.testBit k then clmulPart a b k ^^^ (a <<< k) else clmulPart a b k := by
  simp [clmulPart, List.range_succ]

/-- The sum over the first `k` bits of `b` has degree below `deg a + k`. -/
theorem clmulPart_lt (a b k : Nat) : clmulPart a b k < 2 ^ (a.log2 + k) := by
  induction k with
  | zero => exact Nat.two_pow_pos _
  | succ k ih =>
    have hacc : clmulPart a b k < 2 ^ (a.log2 + (k + 1)) := ih.trans (Nat.pow_lt_pow_right (by decide) (by omega))
    rw [clmulPart_succ]
    split
    · refine Nat.xor_lt_two_pow hacc ?_
      rw [Nat.shiftLeft_eq, show a.log2 + (k + 1) = (a.log2 + 1) + k by omega, pow_add]
      exact Nat.mul_lt_mul_of_pos_right Nat.lt_log2_self (Nat.two_pow_pos k)
    · exact hacc

/-- The product of two polynomials that are not 0 is not 0, and its degree is the sum of theirs. -/
theorem clmul_log2 {a b : Nat} (ha : a ≠ 0) (hb : b ≠ 0) : clmul a b ≠ 0 ∧ (clmul a b).log2 = a.log2 + b.log2 := by
  refine log2_eq_of_bounds (Nat.ge_two_pow_of_testBit ?_) (clmulPart_lt a b _)
  have hlow := Nat.testBit_lt_two_pow (clmulPart_lt a b b.log2)
  rw [clmul_eq, clmulPart_succ, if_pos (Nat.testBit_log2 hb), Nat.testBit_xor, hlow, Nat.testBit_shiftLeft]
  simp [Nat.testBit_log2 ha]

/-! ## Minimal polynomials -/

/-- A coefficient list with leading coefficient 1, read as a number, has the degree of the list. -/
theorem gf2Poly_monic (l : List Half) : gf2Poly (l ++ [1]) ≠ 0 ∧ (gf2Poly (l ++ [1])).log2 = l.length := by
  have hbounds : 2 ^ l.length ≤ gf2Poly (l ++ [1]) ∧ gf2Poly (l ++ [1]) < 2 ^ (l.length + 1) := by
    induction l with
    | nil => decide
    | cons c l ih =>
      have hcons : gf2Poly (c :: l ++ [1]) = 2 * gf2Poly (l ++ [1]) + (if c = 0 then 0 else 1) := rfl
      rw [hcons, List.length_cons, pow_succ, pow_succ 2 (l.length + 1)]
      split <;> omega
  exact log2_eq_of_bounds hbounds.1 hbounds.2

/-- Multiplication by x + r keeps a polynomial monic and raises its degree by one. -/
theorem mulLinear_monic (F : GfTables) (l : List Half) (r : Half) :
    ∃ l', mulLinear F (l ++ [1]) r = l' ++ [1] ∧ l'.length = l.length + 1 := by
  refine ⟨List.zipWith (fun a b => a ^^^ b) (0 :: l) ((l ++ [1]).map fun c => F.mul c r), ?_, by simp⟩
  unfold mulLinear
  rw [← List.cons_append, List.zipWith_append (by simp)]
  rfl

/-- A minimal polynomial is monic, its degree the size of the coset (R89). -/
theorem minPoly_monic (F : GfTables) (cs : List Nat) : ∃ l, minPoly F cs = l ++ [1] ∧ l.length = cs.length := by
  suffices h : ∀ l : List Half, ∃ l',
      cs.foldl (fun mp c => mulLinear F mp (F.pow c)) (l ++ [1]) = l' ++ [1] ∧ l'.length = l.length + cs.length by
    simpa [minPoly] using h []
  induction cs with
  | nil => exact fun l => ⟨l, rfl, rfl⟩
  | cons c cs ih =>
    intro l
    obtain ⟨l1, h1, hlen1⟩ := mulLinear_monic F l (F.pow c)
    obtain ⟨l2, h2, hlen2⟩ := ih l1
    exact ⟨l2, by rw [List.foldl_cons, h1, h2], by rw [hlen2, hlen1, List.length_cons]; omega⟩

/-- The degree of the minimal polynomial over a coset, as a number over GF(2). -/
theorem gf2Poly_minPoly (F : GfTables) (cs : List Nat) :
    gf2Poly (minPoly F cs) ≠ 0 ∧ (gf2Poly (minPoly F cs)).log2 = cs.length := by
  obtain ⟨l, h, hlen⟩ := minPoly_monic F cs
  rw [h, ← hlen]
  exact gf2Poly_monic l

/-- A coset holds at least its own exponent. -/
theorem coset_length_pos {m : Nat} (hm : 1 ≤ m) (n i : Nat) : 1 ≤ (coset m n i).length := by
  obtain ⟨k, rfl⟩ := Nat.exists_eq_add_of_le' hm
  rw [coset, cosetLoop]
  split <;> simp

/-! ## The generator polynomial -/

/-- One exponent of the loop of `genpoly` (R89): skipped when its coset has been seen, else one more factor. -/
def genStep (F : GfTables) (m : Nat) (acc : Nat × List Nat) (i : Nat) : Nat × List Nat :=
  if acc.2.contains i then acc
  else (clmul acc.1 (gf2Poly (minPoly F (coset m F.n i))), acc.2 ++ coset m F.n i)

theorem genPoly_eq (F : GfTables) (m t : Nat) :
    genPoly F m t = ((List.range' Config.root0 (2 * t)).foldl (genStep F m) (1, [])).1 := rfl

/-- A step multiplies by a polynomial that is not 0: the degree does not fall. -/
theorem genStep_degree (F : GfTables) (m i : Nat) {acc : Nat × List Nat} (h : acc.1 ≠ 0) :
    (genStep F m acc i).1 ≠ 0 ∧ acc.1.log2 ≤ (genStep F m acc i).1.log2 := by
  unfold genStep
  split
  · exact ⟨h, le_rfl⟩
  · obtain ⟨hne, hlog⟩ := clmul_log2 h (gf2Poly_minPoly F (coset m F.n i)).1
    exact ⟨hne, by rw [hlog]; exact Nat.le_add_right _ _⟩

/-- Nor does it over any further exponents. -/
theorem genFold_degree (F : GfTables) (m : Nat) (is : List Nat) (acc : Nat × List Nat) (h : acc.1 ≠ 0) :
    (is.foldl (genStep F m) acc).1 ≠ 0 ∧ acc.1.log2 ≤ (is.foldl (genStep F m) acc).1.log2 := by
  induction is generalizing acc with
  | nil => exact ⟨h, le_rfl⟩
  | cons i is ih =>
    obtain ⟨h1, hle1⟩ := genStep_degree F m i h
    obtain ⟨h2, hle2⟩ := ih (genStep F m acc i) h1
    exact ⟨h2, hle1.trans hle2⟩

/-- The generator polynomial of a code that corrects an error is not 0 and not constant (R89, R90). -/
theorem genPoly_degree_pos (F : GfTables) {m t : Nat} (hm : 1 ≤ m) (ht : 1 ≤ t) :
    genPoly F m t ≠ 0 ∧ 1 ≤ (genPoly F m t).log2 := by
  obtain ⟨k, hk⟩ : ∃ k, 2 * t = k + 1 := ⟨2 * t - 1, by omega⟩
  rw [genPoly_eq, hk, List.range'_succ, List.foldl_cons]
  obtain ⟨hne, hdeg⟩ := gf2Poly_minPoly F (coset m F.n Config.root0)
  obtain ⟨h1, hlog⟩ := clmul_log2 Nat.one_ne_zero hne
  have hfirst : (genStep F m (1, []) Config.root0).1 = clmul 1 (gf2Poly (minPoly F (coset m F.n Config.root0))) := rfl
  obtain ⟨h2, hle⟩ := genFold_degree F m (List.range' (Config.root0 + 1) k) _ (hfirst ▸ h1)
  refine ⟨h2, le_trans ?_ hle⟩
  rw [hfirst, hlog, hdeg]
  exact Nat.le_add_left_of_le (coset_length_pos hm _ _)

end Sys2Proof.Machine
end

section
/-! What the decoder stages leave: the solver's polynomial and degree counter (R130, R131), and the list of positions
(R133). -/

namespace Sys2Proof.Machine

/-! ## The solver -/

/-- What holds before iteration `i` of R130's loop. The degree counters of the current locator and of the one before
its last change add up to one more than the marker `pp`, and `pp` is at most `2i - 2`, or -1: that bounds L. -/
structure BmInv (t i : Nat) (st : BmVars) : Prop where
  c_len : st.c.length = 2 * t + 1
  c_zero : st.c.getD 0 0 = 1
  c_above : ∀ j, st.l < j → st.c.getD j 0 = 0
  degrees : (st.l : Int) + st.scratch.lb = st.scratch.pp + 1
  marker : st.scratch.pp + 1 ≤ ((2 * i - 1 : Nat) : Int)
  pd_ne : st.scratch.pd ≠ 0

/-- The locator 1 has no other coefficient (R91, R129, R130). -/
theorem initialLocator_getD (n : Nat) {j : Nat} (hj : 0 < j) : (1 :: List.replicate n (0 : Half)).getD j 0 = 0 := by
  obtain ⟨k, rfl⟩ := Nat.exists_eq_add_of_lt hj
  rw [Nat.zero_add, List.getD_cons_succ]
  by_cases hk : k < n
  · exact List.getD_replicate 0 hk
  · exact List.getD_eq_default _ _ (by simpa using hk)

theorem bmInit_inv (syn : List Half) (t : Nat) : BmInv t 0 (bmInit syn t) where
  c_len := by simp [bmInit]
  c_zero := rfl
  c_above _ hj := initialLocator_getD (2 * t) hj
  degrees := by simp [bmInit]
  marker := by simp [bmInit]
  pd_ne := by simp [bmInit]

theorem BmInv.mono {t i j : Nat} {st : BmVars} (h : BmInv t i st) (hij : i ≤ j) : BmInv t j st :=
  { h with marker := by have := h.marker; omega }

/-- The degree counter is at most 2t - 1 (R131 (b)). -/
theorem BmInv.l_le {t i : Nat} {st : BmVars} (h : BmInv t i st) (hi : i ≤ t) : st.l ≤ 2 * t - 1 := by
  have := h.degrees
  have := h.marker
  omega

@[simp] theorem bmAddShifted_length (F : GfTables) (c b : List Half) (lb kk : Nat) (q : Half) :
    (bmAddShifted F c b lb kk q).length = c.length := by simp [bmAddShifted]

/-- The shifted sum changes no coefficient outside `kk .. lb + kk`. -/
theorem bmAddShifted_getD (F : GfTables) (cs b : List Half) (lb kk : Nat) (q : Half) {x : Nat}
    (h : x < kk ∨ lb + kk < x) : (bmAddShifted F cs b lb kk q).getD x 0 = cs.getD x 0 := by
  unfold bmAddShifted
  rw [List.getD_eq_getElem?_getD, List.getD_eq_getElem?_getD (l := cs), List.getElem?_mapIdx]
  cases cs[x]? with
  | none => rfl
  | some v => rw [Option.map_some, if_neg (by omega)]

/-- The branch for a discrepancy that is not 0 (R130). The shift is at least 1, so C[0] stays 1. -/
theorem bmUpdate_inv (F : GfTables) {t i : Nat} {st : BmVars} (h : BmInv t i st) (hd : st.d ≠ 0) :
    BmInv t (i + 1) (bmUpdate F i st) := by
  have hdeg := h.degrees
  have hmark := h.marker
  obtain ⟨kk, hkk⟩ : ∃ kk, kk = (2 * (i : Int) - st.scratch.pp).toNat := ⟨_, rfl⟩
  have hkk1 : 1 ≤ kk := by omega
  have hkk' : (kk : Int) = 2 * i - st.scratch.pp := by omega
  have hzero : (bmAddShifted F st.c st.scratch.b st.scratch.lb kk (F.div st.d st.scratch.pd)).getD 0 0 = 1 :=
    (bmAddShifted_getD _ _ _ _ _ _ (.inl (by omega))).trans h.c_zero
  have habove : ∀ j, st.l < j → st.scratch.lb + kk < j →
      (bmAddShifted F st.c st.scratch.b st.scratch.lb kk (F.div st.d st.scratch.pd)).getD j 0 = 0 := fun j h1 h2 =>
    (bmAddShifted_getD _ _ _ _ _ _ (.inr h2)).trans (h.c_above j h1)
  unfold bmUpdate
  rw [← hkk]
  dsimp only
  split
  next hgt =>
    exact
      { c_len := by rw [bmAddShifted_length, h.c_len]
        c_zero := hzero
        c_above := fun j hj => habove j (by dsimp only at hj; omega) hj
        degrees := by push_cast; omega
        marker := by dsimp only; omega
        pd_ne := hd }
  next hle =>
    exact
      { c_len := by rw [bmAddShifted_length, h.c_len]
        c_zero := hzero
        c_above := fun j hj => habove j hj (by dsimp only at hj; omega)
        degrees := hdeg
        marker := by dsimp only; omega
        pd_ne := h.pd_ne }

/-- One iteration keeps the invariant: the next discrepancy is no part of it. -/
theorem bmIter_inv (F : GfTables) (syn : List Half) {t i : Nat} {st : BmVars} (h : BmInv t i st) :
    BmInv t (i + 1) (bmIter F syn t i st) := by
  have hst : BmInv t (i + 1) (if st.d ≠ 0 then bmUpdate F i st else st) := by
    split
    · exact bmUpdate_inv F h ‹_›
    · exact h.mono (Nat.le_succ i)
  unfold bmIter
  dsimp only
  split
  · exact { hst with }
  · exact hst

/-- The solver ends with the invariant (R131). -/
theorem bm_inv (F : GfTables) (syn : List Half) (t : Nat) : BmInv t t (bm F syn t) := by
  suffices h : ∀ n, BmInv t n
      ((List.range n).foldl (fun st i => if st.l ≤ t then bmIter F syn t i st else st) (bmInit syn t)) from h t
  intro n
  induction n with
  | zero => exact bmInit_inv syn t
  | succ n ih =>
    rw [List.range_succ, List.foldl_append, List.foldl_cons, List.foldl_nil]
    split
    · exact bmIter_inv F syn ih
    · exact ih.mono (Nat.le_succ n)

/-! ## The positions found -/

@[simp] theorem locEntries_length (t : Nat) (ps : List Nat) : (locEntries t ps).length = t := by
  simp only [locEntries, List.length_append, List.length_map, List.length_take, List.length_replicate]
  omega

/-- With at most t positions, `LOC` lists them all, in their order. -/
theorem locEntries_getD {t : Nat} {ps : List Nat} (h : ps.length ≤ t) {i : Nat} (hi : i < ps.length) :
    (locEntries t ps).getD i 0 = BitVec.ofNat 16 ps[i] := by
  have hlen : i < ((ps.take t).map (BitVec.ofNat 16)).length := by simp; omega
  rw [locEntries, List.getD_eq_getElem?_getD, List.getElem?_append_left hlen]
  simp [show i < t by omega, hi]

/-- The positions found are below n (R133). -/
theorem chienRoots_lt {F : GfTables} {c : List Half} {l p : Nat} (hp : p ∈ chienRoots F c l) : p < F.n := by
  simp only [chienRoots, List.mem_map, List.mem_filter, List.mem_range'_1] at hp
  obtain ⟨i, ⟨hi, -⟩, rfl⟩ := hp
  omega

/-- The positions found descend (R133). -/
theorem chienRoots_descending (F : GfTables) (c : List Half) (l : Nat) : (chienRoots F c l).Pairwise (· > ·) := by
  have hscan : ((List.range' 1 F.n).filter fun i => locatorAt F c l i == 0).Pairwise (· < ·) :=
    (List.pairwise_lt_range' 1 (by decide)).filter _
  refine List.pairwise_map.2 (hscan.imp_of_mem fun {a b} ha hb hab => ?_)
  have ha' := (List.mem_range'_1.1 (List.mem_filter.1 ha).1)
  have hb' := (List.mem_range'_1.1 (List.mem_filter.1 hb).1)
  show F.n - b < F.n - a
  omega

theorem chienRoots_length_le (F : GfTables) (c : List Half) (l : Nat) : (chienRoots F c l).length ≤ F.n := by
  rw [chienRoots, List.length_map]
  exact (List.length_filter_le _ _).trans (by simp)

end Sys2Proof.Machine
end

section
/-! The invariant of BCHCORE: it holds at reset, every way a command can end keeps each of its parts, hence every step
keeps it. -/

namespace Sys2Proof.Machine

section Invariant

variable {s u : State} {i : Instr} {r : Result}

/-! ## Buffers -/

/-- A corrected position keeps both buffers canonical (R136). -/
theorem correctOne_wf (k e : Nat) {bufs : Memory × Memory} (p : Nat) (h : bufs.1.wf = true ∧ bufs.2.wf = true) :
    (correctOne k e bufs p).1.wf = true ∧ (correctOne k e bufs p).2.wf = true := by
  unfold correctOne
  split
  · exact h
  · split
    · exact ⟨Memory.wf_flipBit _ _ h.1, h.2⟩
    · exact ⟨h.1, Memory.wf_flipBit _ _ h.2⟩

theorem State.corrected_wf (hm : s.msg.wf = true) (he : s.eccs.wf = true) :
    s.corrected.1.wf = true ∧ s.corrected.2.wf = true := by
  unfold State.corrected
  exact List.foldlRecOn _ _ (motive := fun b : Memory × Memory => b.1.wf = true ∧ b.2.wf = true) ⟨hm, he⟩
    fun _ h _ _ => correctOne_wf _ _ _ h

theorem syndBody_buffersOk (h : BuffersOk s) : BuffersOk (syndBody s) :=
  have ⟨hmsg, hecc, heccs⟩ := h
  ⟨hmsg, hecc, Memory.wf_writeBytes _ _ _ heccs⟩

theorem correctBody_buffersOk (h : BuffersOk s) : BuffersOk (correctBody s) :=
  have ⟨hmsg, hecc, heccs⟩ := h
  have ⟨hmsg', heccs'⟩ := State.corrected_wf hmsg heccs
  ⟨hmsg', hecc, heccs'⟩

/-- Every command keeps the buffers canonical. -/
theorem Effect.buffersOk (he : Effect s i r) (h : BuffersOk s) : BuffersOk r.state := by
  have ⟨hmsg, hecc, heccs⟩ := h
  cases he with
  | clear => exact State.reset_buffers_wf
  | derive => exact ⟨rfl, rfl, rfl⟩
  | storeMsg => exact ⟨Memory.wf_write _ _ _ hmsg, hecc, heccs⟩
  | storeEcc => exact ⟨hmsg, Memory.wf_write _ _ _ hecc, heccs⟩
  | encode => exact ⟨hmsg, Memory.wf_writeBytes _ _ _ hecc, heccs⟩
  | synd => exact syndBody_buffersOk h
  | correct => exact correctBody_buffersOk h
  | decodeClean => exact syndBody_buffersOk h
  | decodeNoLocator => exact syndBody_buffersOk h
  | decodeNoRoots => exact syndBody_buffersOk h
  | decodeCorrect => exact correctBody_buffersOk (s := s.decodeRoots) (syndBody_buffersOk h)
  | _ => exact h

/-! ## Registers whose writer has not run -/

/-- Every command keeps the derived registers at 0 until their writer runs (R24, R44). -/
theorem Effect.unbuiltOk (he : Effect s i r) (h : UnbuiltOk s) : UnbuiltOk r.state := by
  have hcode : r.state.cfgstate = .code → UnbuiltOk r.state := fun hc => by constructor <;> simp [hc]
  cases he with
  | clear => exact ⟨fun _ => ⟨rfl, rfl⟩, fun _ => ⟨rfl, rfl, rfl, rfl, rfl, rfl, rfl⟩⟩
  | build A L hc => exact ⟨by simp, fun _ => h.no_code (by simp [hc])⟩
  | refuse | nop | readCsr | gfRead | readSpace => exact h
  | writeM | writePoly | writeT | writeK | gfLoad | gfCompute => exact ⟨h.no_field, h.no_code⟩
  | derive => exact hcode rfl
  | _ => exact hcode ‹_›

/-! ## The field -/

/-- The field state depends on the field's registers and tables and on the G registers only. -/
theorem FieldOk.of_same (h : FieldOk s) (hf : SameField s u) (hr : ∀ r, s.tables.elem (u.readG r)) : FieldOk u := by
  have htab : u.tables = s.tables := by simp [State.tables, hf.n, hf.log, hf.antilog]
  exact ⟨by rw [hf.m, hf.prim, htab]; exact h.tables, fun r => by rw [htab]; exact hr r⟩

/-- What `GFBUILD` commits is a field (R28, R86, R88, R99). -/
theorem State.commitField_fieldOk {A L : Array Half} (hlo : 2 ≤ s.m.toNat) (hhi : s.m.toNat ≤ 15)
    (hP : s.polyInUse >>> s.m.toNat = 1) (hb : buildField s.m.toNat s.polyInUse = some (A, L)) :
    FieldOk (s.commitField s.polyInUse A L) := by
  have hpow : 2 ^ s.m.toNat ≤ 2 ^ 15 := Nat.pow_le_pow_right (by decide) hhi
  have hpoly : s.polyInUse < 2 ^ 16 := by
    have := lt_two_pow_of_degree hP
    rw [pow_succ] at this
    omega
  have hn : (BitVec.ofNat 16 (2 ^ s.m.toNat - 1)).toNat = 2 ^ s.m.toNat - 1 := by
    rw [BitVec.toNat_ofNat]; exact Nat.mod_eq_of_lt (by omega)
  have hp : (BitVec.ofNat 16 s.polyInUse).toNat = s.polyInUse := by
    rw [BitVec.toNat_ofNat]; exact Nat.mod_eq_of_lt hpoly
  constructor
  · rw [State.tables, State.commitField_m, State.commitField_prim, State.commitField_n, hn, hp]
    exact tablesOk_of_buildField hP hlo hhi hb
  · intro r
    have hz : (s.commitField s.polyInUse A L).readG r = 0 := by simp [State.readG]
    rw [hz]
    exact GfTables.elem_zero _

/-- A G register written with an element leaves elements in all of them (R99). -/
theorem FieldOk.elem_setG (h : FieldOk s) (rd : GReg) {v : Half} (hv : s.tables.elem v) (q : GReg) :
    s.tables.elem ((s.setG rd v).readG q) := by
  rw [State.readG_setG]
  split
  · exact hv
  · exact h.regs q

/-- Every command but `CLEAR` keeps a built field. -/
theorem Effect.fieldOk (he : Effect s i r) (hc : s.cfgstate ≠ .empty) (hr : r.state.cfgstate ≠ .empty)
    (h : FieldOk s) : FieldOk r.state := by
  refine h.of_same (he.sameField hc hr) ?_
  cases he with
  | clear => exact absurd rfl hr
  | build A L h0 => exact absurd h0 hc
  | gfLoad rd v _ hv => exact h.elem_setG rd hv
  | gfCompute i rd v _ ho => exact h.elem_setG rd (ho.elem h)
  | _ => exact h.regs

/-- A field that a command leaves is well built, be it an old one or a new one. -/
theorem Effect.fieldOk_of_inv (he : Effect s i r) (h : s.cfgstate ≠ .empty → FieldOk s)
    (hr : r.state.cfgstate ≠ .empty) : FieldOk r.state := by
  by_cases hc : s.cfgstate = .empty
  · cases he with
    | build A L _ hlo hhi hP hb => exact State.commitField_fieldOk hlo hhi hP hb
    | derive g hf => simp [hc] at hf
    | clear => exact absurd rfl hr
    | _ => exact absurd hc hr
  · exact he.fieldOk hc hr (h hc)

/-! ## The code -/

/-- The part of the code state that the decoder writes (R35, R36, R39, R131). -/
structure ScratchOk (s : State) : Prop where
  syn_len : s.syn.length = 2 * s.t.toNat
  elp_len : s.elp.length = 2 * s.t.toNat + 1
  loc_len : s.loc.length = s.t.toNat
  elp_zero : s.elp.getD 0 0 = 1
  elpdeg_le : s.elpdeg.toNat ≤ 2 * s.t.toNat - 1
  elp_above : ∀ j, s.elpdeg.toNat < j → s.elp.getD j 0 = 0

theorem CodeOk.scratch (h : CodeOk s) : ScratchOk s := { h with }

/-- The code state is the configuration, which only `CLEAR` touches, and what the decoder writes. -/
theorem CodeOk.of_same (h : CodeOk s) (hf : SameField s u) (hk : SameCode s u) (hs : ScratchOk u) : CodeOk u := by
  have htab : u.tables = s.tables := by simp [State.tables, hf.n, hf.log, hf.antilog]
  exact
    { hs with
      t_pos := by rw [hk.t]; exact h.t_pos
      mt_lt := by rw [hf.m, hk.t, hf.n]; exact h.mt_lt
      k_pos := by rw [hk.k]; exact h.k_pos
      gen_eq := by rw [hk.gen, htab, hf.m, hk.t]; exact h.gen_eq
      gen_ne := by rw [hk.gen]; exact h.gen_ne
      e_eq := by rw [hk.ebits, hk.gen]; exact h.e_eq
      e_pos := by rw [hk.ebits]; exact h.e_pos
      fits := by rw [hk.k, hk.ebits, hf.n]; exact h.fits
      eb_eq := by rw [hk.ebytes, hk.ebits]; exact h.eb_eq
      kb_eq := by rw [hk.kbytes, hk.k]; exact h.kb_eq
      mod8_eq := by rw [hk.mod8, hk.gen, hk.ebits]; exact h.mod8_eq }

/-- The locator 1 of degree 0 that `DERIVE` and `SYND` set (R91, R129). -/
theorem ScratchOk.of_initial (hsyn : s.syn.length = 2 * s.t.toNat) (hloc : s.loc.length = s.t.toNat)
    (help : s.elp = 1 :: List.replicate (2 * s.t.toNat) 0) (hdeg : s.elpdeg = 0) : ScratchOk s where
  syn_len := hsyn
  elp_len := by simp [help]
  loc_len := hloc
  elp_zero := by simp [help]
  elpdeg_le := by simp [hdeg]
  elp_above j hj := by rw [help]; exact initialLocator_getD _ (Nat.zero_lt_of_lt hj)

theorem syndBody_scratchOk (h : ScratchOk s) : ScratchOk (syndBody s) :=
  .of_initial (by simp [syndromes]) h.loc_len rfl rfl

/-- The solver's result fits the scratch it is stored in, as long as its degree counter fits in 16 bits (R131). -/
theorem ScratchOk.storeLocator (h : ScratchOk s) (ht : 2 * s.t.toNat < 2 ^ 16) :
    ScratchOk (s.storeLocator s.solve) := by
  have hbm := bm_inv s.tables s.syn s.t.toNat
  have hl := hbm.l_le le_rfl
  have hnat : (BitVec.ofNat 16 s.solve.l).toNat = s.solve.l := by
    rw [BitVec.toNat_ofNat]; exact Nat.mod_eq_of_lt (by unfold State.solve; omega)
  exact
    { syn_len := h.syn_len
      elp_len := hbm.c_len
      loc_len := h.loc_len
      elp_zero := hbm.c_zero
      elpdeg_le := hnat.le.trans hl
      elp_above := fun j hj => hbm.c_above j (hnat ▸ hj) }

theorem ScratchOk.storeRoots (h : ScratchOk s) (ps : List Nat) : ScratchOk (s.storeRoots ps) :=
  { h with loc_len := locEntries_length _ _ }

theorem ScratchOk.setStage (h : ScratchOk s) (st : Stage) : ScratchOk (s.setStage st) := { h with }

theorem ScratchOk.correctBody (h : ScratchOk s) : ScratchOk (correctBody s) := { h with }

/-- In a derived code 2t fits in 16 bits: mt is below n, and m is at least 2. -/
theorem CodeOk.two_t_lt (h : CodeOk s) (hf : FieldOk s) : 2 * s.t.toNat < 2 ^ 16 := by
  have hm := Nat.mul_le_mul_right s.t.toNat hf.tables.m_lo
  have := h.mt_lt
  have := s.n.isLt
  omega

/-- Every command in a derived code keeps the decoder's part. -/
theorem Effect.scratchOk (he : Effect s i r) (hc : s.cfgstate = .code) (hr : r.state.cfgstate ≠ .empty)
    (ht : 2 * s.t.toNat < 2 ^ 16) (h : ScratchOk s) : ScratchOk r.state := by
  have hsolved : ScratchOk ((syndBody s).storeLocator (syndBody s).solve) := (syndBody_scratchOk h).storeLocator ht
  cases he with
  | clear => exact absurd rfl hr
  | build A L h0 => simp [hc] at h0
  | derive g h0 => simp [hc] at h0
  | writeM csr v h0 => simp [hc] at h0
  | writePoly csr v h0 => simp [hc] at h0
  | writeT csr v h0 => exact absurd hc h0
  | writeK csr v h0 => exact absurd hc h0
  | synd => exact syndBody_scratchOk h
  | locator => exact (h.storeLocator ht).setStage _
  | noLocator => exact (h.storeLocator ht).setStage _
  | roots => exact (h.storeRoots _).setStage _
  | noRoots => exact (h.storeRoots _).setStage _
  | correct => exact h.correctBody
  | decodeClean => exact (syndBody_scratchOk h).setStage _
  | decodeNoLocator => exact hsolved.setStage _
  | decodeNoRoots => exact ((hsolved.setStage _).storeRoots _).setStage _
  | decodeCorrect => exact (((hsolved.setStage _).storeRoots _).setStage _).correctBody
  | _ => exact { h with }

/-- What `DERIVE` commits is a code (R89, R90, R91). -/
theorem State.commitCode_codeOk (hf : FieldOk s) (ht : 1 ≤ s.t.toNat) (hmt : s.m.toNat * s.t.toNat < s.n.toNat)
    (hk : 1 ≤ s.k.toNat) (hfit : s.k.toNat + (genPoly s.tables s.m.toNat s.t.toNat).log2 ≤ s.n.toNat) :
    CodeOk (s.commitCode (genPoly s.tables s.m.toNat s.t.toNat)) := by
  have hm : 1 ≤ s.m.toNat := le_trans (by decide) hf.tables.m_lo
  obtain ⟨hne, hpos⟩ := genPoly_degree_pos s.tables hm ht
  obtain ⟨g, hg⟩ : ∃ g, g = genPoly s.tables s.m.toNat s.t.toNat := ⟨_, rfl⟩
  rw [← hg] at hfit hne hpos ⊢
  have hn := s.n.isLt
  have hnat : ∀ x, x < 2 ^ 16 → (BitVec.ofNat 16 x).toNat = x := fun x hx => by
    rw [BitVec.toNat_ofNat]; exact Nat.mod_eq_of_lt hx
  have he : (s.commitCode g).ebits.toNat = g.log2 := hnat _ (by omega)
  have hs : ScratchOk (s.commitCode g) := .of_initial (by simp) (by simp) rfl rfl
  exact
    { hs with
      t_pos := ht
      mt_lt := hmt
      k_pos := hk
      gen_eq := hg
      gen_ne := hne
      e_eq := he
      e_pos := he ▸ hpos
      fits := by rw [he]; exact hfit
      eb_eq := by rw [he]; exact hnat _ (by omega)
      kb_eq := hnat _ (by omega)
      mod8_eq := by rw [he]; rfl }

/-- A code that a command leaves is well derived, be it an old one or a new one. -/
theorem Effect.codeOk_of_inv (he : Effect s i r) (hf : s.cfgstate ≠ .empty → FieldOk s)
    (h : s.cfgstate = .code → CodeOk s) (hr : r.state.cfgstate = .code) : CodeOk r.state := by
  by_cases hc : s.cfgstate = .code
  · have hne : s.cfgstate ≠ .empty := by simp [hc]
    have hre : r.state.cfgstate ≠ .empty := by simp [hr]
    exact (h hc).of_same (he.sameField hne hre) (he.sameCode hc hre)
      (he.scratchOk hc hre ((h hc).two_t_lt (hf hne)) (h hc).scratch)
  · cases he with
    | derive g h0 hg ht hmt hk hfit =>
      subst hg
      exact State.commitCode_codeOk (hf (by simp [h0])) ht hmt hk hfit
    | clear => cases hr
    | build => cases hr
    | _ => exact absurd hr hc

/-! ## STAGE -/

/-- A stage that promises nothing. -/
theorem StageOk.of_ne (h1 : s.stage ≠ .locator) (h2 : s.stage ≠ .roots) : StageOk s :=
  ⟨fun h => absurd h h1, fun h => absurd h h2⟩

/-- The positions of a search whose count is the degree keep the promise of `STAGE` = ROOTS (R133, R134). -/
theorem StageOk.storeRoots (hn : s.search.length = s.elpdeg.toNat) (hdeg : s.elpdeg.toNat ≤ s.t.toNat) :
    StageOk ((s.storeRoots s.search).setStage .roots) := by
  have hnerr : BitVec.ofNat 16 s.search.length = s.elpdeg := by rw [hn, BitVec.ofNat_toNat, BitVec.setWidth_eq]
  have hlt : ∀ j, (hj : j < s.search.length) → s.search[j] < s.n.toNat := fun j hj =>
    chienRoots_lt (List.getElem_mem hj)
  have hget : ∀ j, (hj : j < s.search.length) →
      ((locEntries s.t.toNat s.search).getD j 0).toNat = s.search[j] := by
    intro j hj
    have := hlt j hj
    have := s.n.isLt
    rw [locEntries_getD (hn ▸ hdeg) hj, BitVec.toNat_ofNat]
    exact Nat.mod_eq_of_lt (by omega)
  refine ⟨fun h => (by cases h), fun _ => ?_⟩
  simp only [State.setStage_nerr, State.setStage_elpdeg, State.setStage_t, State.setStage_loc, State.setStage_n,
    State.storeRoots_nerr, State.storeRoots_elpdeg, State.storeRoots_t, State.storeRoots_loc, State.storeRoots_n, hnerr,
    ← hn]
  refine ⟨trivial, hn ▸ hdeg, fun j hj => ?_, fun a b hab hb => ?_⟩
  · rw [hget j hj]
    exact hlt j hj
  · rw [hget a (by omega), hget b hb]
    exact List.pairwise_iff_getElem.1 (chienRoots_descending _ _ _) a b _ _ hab

/-- Every command keeps what `STAGE` promises. -/
theorem Effect.stageOk (he : Effect s i r) (hu : UnbuiltOk s) (h : StageOk s) : StageOk r.state := by
  have hidle : s.cfgstate ≠ .code → s.stage = .idle := fun hc => by
    obtain ⟨-, -, -, -, -, -, hst⟩ := hu.no_code hc
    exact hst
  cases he with
  | refuse | nop | readCsr | gfRead | readSpace => exact h
  | writeM | writePoly | writeK | gfLoad | gfCompute => exact ⟨h.locator, h.roots⟩
  | writeT csr v hc => exact .of_ne (by simp [hidle hc]) (by simp [hidle hc])
  | build A L hc =>
    have := hidle (by simp [hc])
    exact .of_ne (by simp [this]) (by simp [this])
  | clear => exact .of_ne nofun nofun
  | locator hc hst hl => exact ⟨fun _ => (Nat.mod_le _ _).trans hl, fun h => (by cases h)⟩
  | roots hc hst hn => exact .storeRoots hn (h.locator hst)
  | _ => exact .of_ne (by simp) (by simp)

/-! ## The whole invariant -/

/-- The invariant says nothing of the port. -/
theorem StateInv.withPort (h : StateInv s) (p : List PortEvent) : StateInv { s with port := p } where
  buffers := h.buffers
  status := h.status
  unbuilt := ⟨h.unbuilt.no_field, h.unbuilt.no_code⟩
  field hc := ⟨(h.field hc).tables, (h.field hc).regs⟩
  code hc := { h.code hc with }
  stage := ⟨h.stage.locator, h.stage.roots⟩

/-- Every end of a command keeps the invariant. -/
theorem Effect.stateInv (he : Effect s i r) (h : StateInv s) : StateInv (r.state.report r.code r.data) where
  buffers := he.buffersOk h.buffers
  status := r.report_statusOk
  unbuilt :=
    have hu := he.unbuiltOk h.unbuilt
    ⟨hu.no_field, hu.no_code⟩
  field hc :=
    have hf := he.fieldOk_of_inv h.field hc
    ⟨hf.tables, hf.regs⟩
  code hc := { he.codeOk_of_inv h.field h.code hc with }
  stage :=
    have hs := he.stageOk h.unbuilt h.stage
    ⟨hs.locator, hs.roots⟩

end Invariant

/-- Settles O21. -/
theorem resetMeetsTheInvariant : Obligations.ResetMeetsTheInvariant where
  buffers := State.reset_buffers_wf
  status := ⟨by decide, 0, by decide, fun _ => rfl⟩
  unbuilt := ⟨fun _ => ⟨rfl, rfl⟩, fun _ => ⟨rfl, rfl, rfl, rfl, rfl, rfl, rfl⟩⟩
  field h := absurd rfl h
  code h := by cases h
  stage := .of_ne (by decide) (by decide)

/-- Every port event keeps the invariant: a command word, legal or not, and the hardware reset. -/
theorem portEvent_stateInv {s u : State} {ev : PortEvent} (hs : StateInv s)
    (h : portEvent ev s = .next u) : StateInv u := by
  cases ev with
  | reset =>
    cases h
    exact resetMeetsTheInvariant.withPort s.port
  | command w =>
    unfold portEvent execWord at h
    dsimp only at h
    split at h
    · obtain ⟨r, he, rfl⟩ := exec_effect h
      exact he.stateInv hs
    · cases h
      exact (Effect.refuse .nop .illegalCommand (by decide)).stateInv hs

/-- Settles O22: a step takes an event off the port, which the invariant does not mention, and carries it out. -/
theorem stepKeepsTheInvariant : Obligations.StepKeepsTheInvariant := by
  intro s t hs h
  unfold step at h
  split at h
  · cases h; exact hs
  · exact portEvent_stateInv (hs.withPort _) h

end Sys2Proof.Machine
end

section
/-! What reset leaves unspecified cannot be observed (R43, R44): two indistinct states carry out every command with the
same response and stay indistinct, because no command reads an item before the command that writes it has run. -/

namespace Sys2Proof.Machine

section Noninterference

variable {s u : State}

/-! ## Indistinct states, in the form of an update -/

/-- The state with everything that R43 leaves unspecified taken from another one. -/
def State.withHiddenOf (s v : State) : State :=
  { s with
    g := v.g, log := v.log, antilog := v.antilog, gen := v.gen, mod8 := v.mod8, msg := v.msg, ecc := v.ecc
    eccs := v.eccs, rem := v.rem, syn := v.syn, elp := v.elp, loc := v.loc, bms := v.bms }

/-- The state with only what stays unseen in a derived code taken from another one: `REM`, `BMS` and `LOC`. -/
def State.withScratchOf (s v : State) : State := { s with rem := v.rem, bms := v.bms, loc := v.loc }

theorem CfgState.value_inj {a b : CfgState} (h : a.value = b.value) : a = b := by
  revert h; cases a <;> cases b <;> decide

theorem Stage.value_inj {a b : Stage} (h : a.value = b.value) : a = b := by
  revert h; cases a <;> cases b <;> decide

/-- Widening to 16 bits loses nothing. -/
theorem setWidth_half_inj {w : Nat} (hw : w ≤ 16) {a b : BitVec w} (h : a.setWidth 16 = b.setWidth 16) : a = b := by
  have ha := BitVec.setWidth_setWidth_of_le a hw
  have hb := BitVec.setWidth_setWidth_of_le b hw
  rw [BitVec.setWidth_eq] at ha hb
  rw [← ha, ← hb, h]

theorem Indistinct.refl (s : State) : Indistinct s s :=
  ⟨rfl, rfl, fun _ => rfl, rfl, fun _ => ⟨rfl, rfl, rfl⟩, fun _ => ⟨rfl, rfl, rfl, rfl, rfl, rfl, rfl, fun _ _ => rfl⟩⟩

/-- Every control register determines its field, so indistinct states differ in unspecified items only. -/
theorem Indistinct.exists_withHiddenOf (h : Indistinct s u) : ∃ v, u = s.withHiddenOf v := by
  refine ⟨u, ?_⟩
  have hport := h.port
  have hcfg := h.cfgstate
  have hrsp := h.rsp
  have hm : u.m = s.m := h.csr .m
  have hpoly : u.poly = s.poly := h.csr .poly
  have ht : u.t = s.t := h.csr .t
  have hk : u.k = s.k := h.csr .k
  have hn : u.n = s.n := h.csr .n
  have hprim : u.prim = s.prim := h.csr .prim
  have hebits : u.ebits = s.ebits := h.csr .ebits
  have hebytes : u.ebytes = s.ebytes := h.csr .ebytes
  have hkbytes : u.kbytes = s.kbytes := h.csr .kbytes
  have hnerr : u.nerr = s.nerr := h.csr .nerr
  have helpdeg : u.elpdeg = s.elpdeg := h.csr .elpdeg
  have hstage : u.stage = s.stage := Stage.value_inj (setWidth_half_inj (by decide) (h.csr .stage))
  have hlasterr : u.lasterr = s.lasterr := setWidth_half_inj (by decide) (h.csr .lasterr)
  have hsynz : u.synz = s.synz := by
    have hflags := h.csr .flags
    simp only [State.readCsr, State.flags] at hflags
    revert hflags
    cases u.synz <;> cases s.synz <;> decide
  cases u
  simp only at *
  subst_vars
  rfl

/-- In a derived code they differ in the hidden scratch only, `LOC` beyond `NERR` included. -/
theorem Indistinct.exists_withScratchOf (h : Indistinct s u) (hc : s.cfgstate = .code) :
    ∃ v, u = s.withScratchOf v ∧ ∀ idx, idx < s.nerr.toNat → v.loc.getD idx 0 = s.loc.getD idx 0 := by
  obtain ⟨hg, hlog, hantilog⟩ := h.field (by simp [hc])
  obtain ⟨hgen, hmod8, hmsg, hecc, heccs, hsyn, help, hloc⟩ := h.code hc
  obtain ⟨v, rfl⟩ := h.exists_withHiddenOf
  refine ⟨v, ?_, hloc⟩
  cases v
  simp only [State.withHiddenOf, State.withScratchOf] at *
  subst_vars
  rfl

/-- States that differ in the hidden scratch only, and not in `LOC` below `NERR`, are indistinct. -/
theorem Indistinct.of_scratch (s v : State) (hloc : ∀ idx, idx < s.nerr.toNat → v.loc.getD idx 0 = s.loc.getD idx 0) :
    Indistinct s (s.withScratchOf v) :=
  ⟨rfl, rfl, fun c => by cases c <;> rfl, rfl, fun _ => ⟨rfl, rfl, rfl⟩,
    fun _ => ⟨rfl, rfl, rfl, rfl, rfl, rfl, rfl, hloc⟩⟩

theorem Indistinct.tables (h : Indistinct s u) (hc : s.cfgstate ≠ .empty) : u.tables = s.tables := by
  obtain ⟨-, hlog, hantilog⟩ := h.field hc
  have hn : u.n = s.n := h.csr .n
  simp [State.tables, hn, hlog, hantilog]

theorem Indistinct.readG (h : Indistinct s u) (hc : s.cfgstate ≠ .empty) (r : GReg) : u.readG r = s.readG r := by
  simp [State.readG, (h.field hc).1]

/-! ## The updates a command commits -/

theorem Indistinct.report (h : Indistinct s u) (c : BitVec 8) (d : Half) :
    Indistinct (s.report c d) (u.report c d) := by
  obtain ⟨v, rfl⟩ := h.exists_withHiddenOf
  exact ⟨rfl, rfl, fun c => by cases c <;> rfl, rfl, h.field, h.code⟩

theorem Indistinct.withPort (h : Indistinct s u) (p : List PortEvent) :
    Indistinct { s with port := p } { u with port := p } := by
  obtain ⟨v, rfl⟩ := h.exists_withHiddenOf
  exact ⟨rfl, rfl, fun c => by cases c <;> rfl, rfl, h.field, h.code⟩

theorem Indistinct.clear (h : Indistinct s u) : Indistinct s.clear u.clear := by
  rw [State.clear, State.clear, h.port]
  exact .refl _

theorem Indistinct.writeM (h : Indistinct s u) (x : Half) : Indistinct { s with m := x } { u with m := x } := by
  obtain ⟨v, rfl⟩ := h.exists_withHiddenOf
  exact ⟨rfl, rfl, fun c => by cases c <;> rfl, rfl, h.field, h.code⟩

theorem Indistinct.writePoly (h : Indistinct s u) (x : Half) :
    Indistinct { s with poly := x } { u with poly := x } := by
  obtain ⟨v, rfl⟩ := h.exists_withHiddenOf
  exact ⟨rfl, rfl, fun c => by cases c <;> rfl, rfl, h.field, h.code⟩

theorem Indistinct.writeT (h : Indistinct s u) (x : Half) : Indistinct { s with t := x } { u with t := x } := by
  obtain ⟨v, rfl⟩ := h.exists_withHiddenOf
  exact ⟨rfl, rfl, fun c => by cases c <;> rfl, rfl, h.field, h.code⟩

theorem Indistinct.writeK (h : Indistinct s u) (x : Half) : Indistinct { s with k := x } { u with k := x } := by
  obtain ⟨v, rfl⟩ := h.exists_withHiddenOf
  exact ⟨rfl, rfl, fun c => by cases c <;> rfl, rfl, h.field, h.code⟩

/-- `GFBUILD` writes the G registers and the field tables whole. -/
theorem Indistinct.commitField (h : Indistinct s u) (P : Nat) (A L : Array Half) :
    Indistinct (s.commitField P A L) (u.commitField P A L) := by
  obtain ⟨v, rfl⟩ := h.exists_withHiddenOf
  exact ⟨rfl, rfl, fun c => by cases c <;> rfl, rfl, fun _ => ⟨rfl, rfl, rfl⟩, nofun⟩

/-- `DERIVE` writes the code tables, the buffers and the decoder's results whole. -/
theorem Indistinct.commitCode (h : Indistinct s u) (hc : s.cfgstate = .field) (g : Nat) :
    Indistinct (s.commitCode g) (u.commitCode g) := by
  obtain ⟨v, rfl⟩ := h.exists_withHiddenOf
  exact ⟨rfl, rfl, fun c => by cases c <;> rfl, rfl, fun _ => h.field (by simp [hc]),
    fun _ => ⟨rfl, rfl, rfl, rfl, rfl, rfl, rfl, fun _ _ => rfl⟩⟩

theorem Indistinct.setG (h : Indistinct s u) (rd : GReg) (x : Half) : Indistinct (s.setG rd x) (u.setG rd x) := by
  obtain ⟨v, rfl⟩ := h.exists_withHiddenOf
  refine ⟨rfl, rfl, fun c => by cases c <;> rfl, rfl, fun hc => ?_, h.code⟩
  obtain ⟨hg, hlog, hantilog⟩ := h.field hc
  exact ⟨by rw [State.setG_g, State.setG_g, hg], hlog, hantilog⟩

theorem Indistinct.setStage (h : Indistinct s u) (st : Stage) : Indistinct (s.setStage st) (u.setStage st) := by
  obtain ⟨v, rfl⟩ := h.exists_withHiddenOf
  exact ⟨rfl, rfl, fun c => by cases c <;> rfl, rfl, h.field, h.code⟩

/-! ## Results alike -/

/-- Two results with the same response and indistinct states. -/
inductive Result.Alike : Result → Result → Prop where
  | ok {s u : State} (h : Indistinct s u) (d : Half) : Result.Alike (.ok d s) (.ok d u)
  | err {s u : State} (h : Indistinct s u) (e : Err) : Result.Alike (.err e s) (.err e u)

/-- Two alike bodies end with the same response and indistinct states. -/
theorem Result.Alike.report {r r' : Result} (h : Result.Alike r r') :
    Indistinct (r.state.report r.code r.data) (r'.state.report r'.code r'.data) := by
  cases h with
  | ok h d => exact h.report 0 d
  | err h e => exact h.report e.code 0

/-- What is alike to a success, and to an error. -/
theorem Result.Alike.exists_ok {d : Half} {r : Result} (h : Result.Alike (.ok d s) r) :
    ∃ u, r = .ok d u ∧ Indistinct s u := by
  cases h with
  | ok h => exact ⟨_, rfl, h⟩

theorem Result.Alike.exists_err {e : Err} {r : Result} (h : Result.Alike (.err e s) r) :
    ∃ u, r = .err e u ∧ Indistinct s u := by
  cases h with
  | err h => exact ⟨_, rfl, h⟩

/-- A choice made alike on both sides. -/
theorem Result.Alike.ite {c : Prop} [Decidable c] {a a' b b' : Result} (ht : c → Result.Alike a a')
    (he : ¬c → Result.Alike b b') : Result.Alike (if c then a else b) (if c then a' else b') := by
  split
  · exact ht ‹_›
  · exact he ‹_›

/-! ## System commands -/

theorem wrcsrBody_alike (h : Indistinct s u) (csr : BitVec 8) (x : Half) :
    Result.Alike (wrcsrBody csr x s) (wrcsrBody csr x u) := by
  obtain ⟨v, rfl⟩ := h.exists_withHiddenOf
  unfold wrcsrBody
  split
  · exact .ite (fun _ => .err h _) fun _ => .ok (h.writeM x) 0
  · exact .ite (fun _ => .err h _) fun _ => .ok (h.writePoly x) 0
  · exact .ite (fun _ => .err h _) fun _ => .ok (h.writeT x) 0
  · exact .ite (fun _ => .err h _) fun _ => .ok (h.writeK x) 0
  · exact .err h _

theorem rdcsrBody_alike (h : Indistinct s u) (csr : BitVec 8) : Result.Alike (rdcsrBody csr s) (rdcsrBody csr u) := by
  unfold rdcsrBody
  split
  next r _ =>
    rw [h.csr r]
    exact .ok h _
  · exact .err h _

theorem gfbuildBody_alike (h : Indistinct s u) : Result.Alike (gfbuildBody s) (gfbuildBody u) := by
  have hm : u.m = s.m := h.csr .m
  have hpoly : u.polyInUse = s.polyInUse := by
    obtain ⟨v, rfl⟩ := h.exists_withHiddenOf
    rfl
  unfold gfbuildBody
  rw [h.cfgstate, hm, hpoly]
  refine .ite (fun _ => .err h _) fun _ => .ite (fun _ => .err h _) fun _ => .ite (fun _ => .err h _) fun _ => ?_
  cases buildField s.m.toNat s.polyInUse with
  | none => exact .err h _
  | some tabs => exact .ok (h.commitField _ _ _) _

theorem deriveBody_alike (h : Indistinct s u) : Result.Alike (deriveBody s) (deriveBody u) := by
  have hm : u.m = s.m := h.csr .m
  have ht : u.t = s.t := h.csr .t
  have hk : u.k = s.k := h.csr .k
  have hn : u.n = s.n := h.csr .n
  unfold deriveBody
  rw [h.cfgstate, hm, ht, hk, hn]
  refine .ite (fun _ => .err h _) fun hc => .ite (fun _ => .err h _) fun _ => ?_
  have hc := not_not.1 hc
  rw [h.tables (by simp [hc])]
  exact .ite (fun _ => .err h _) fun _ => .ok (h.commitCode hc _) _

/-! ## GF commands -/

/-- The checks of R100 come out alike; in EMPTY they fail before they look at a source. -/
theorem Indistinct.gfCheck (h : Indistinct s u) {vs vs' : List Half} (hv : s.cfgstate ≠ .empty → vs' = vs) :
    u.gfCheck vs' = s.gfCheck vs := by
  have hn : u.n = s.n := h.csr .n
  unfold State.gfCheck
  rw [h.cfgstate, hn]
  split
  · rfl
  next hc => rw [hv hc]

theorem gfWrite_alike (h : Indistinct s u) (rd : GReg) {vs vs' : List Half} {x x' : Half}
    (hv : s.cfgstate ≠ .empty → vs' = vs ∧ x' = x) : Result.Alike (s.gfWrite rd vs x) (u.gfWrite rd vs' x') := by
  rw [State.gfWrite_eq, State.gfWrite_eq, h.gfCheck fun hc => (hv hc).1]
  cases hg : s.gfCheck vs with
  | some e => exact .err h e
  | none =>
    obtain ⟨hc, -⟩ := (s.gfCheck_none vs).1 hg
    rw [(hv hc).2]
    exact .ok (h.setG rd x) x

theorem gfliBody_alike (h : Indistinct s u) (rd : GReg) (x : Half) :
    Result.Alike (gfliBody rd x s) (gfliBody rd x u) := by
  unfold gfliBody
  rw [h.gfCheck fun _ => rfl]
  cases s.gfCheck [x] with
  | some e => exact .err h e
  | none => exact .ok (h.setG rd x) 0

theorem gfrdBody_alike (h : Indistinct s u) (r : GReg) : Result.Alike (gfrdBody r s) (gfrdBody r u) := by
  unfold gfrdBody
  rw [h.gfCheck (vs := [s.readG r]) fun hc => by rw [h.readG hc]]
  cases hg : s.gfCheck [s.readG r] with
  | some e => exact .err h e
  | none =>
    rw [h.readG ((s.gfCheck_none _).1 hg).1]
    exact .ok h _

theorem gfdivBody_alike (h : Indistinct s u) (rd a b : GReg) :
    Result.Alike (gfdivBody rd a b s) (gfdivBody rd a b u) := by
  unfold gfdivBody
  rw [h.gfCheck (vs := [s.readG a, s.readG b]) fun hc => by rw [h.readG hc, h.readG hc]]
  cases hg : s.gfCheck [s.readG a, s.readG b] with
  | some e => exact .err h e
  | none =>
    have hc := ((s.gfCheck_none _).1 hg).1
    rw [h.readG hc, h.readG hc, h.tables hc]
    exact .ite (fun _ => .err h _) fun _ => .ok (h.setG rd _) _

/-! ## Buffer commands -/

theorem stbSpace_alike (h : Indistinct s u) {sp : Space} (hsp : sp = .msg ∨ sp = .ecc) (idx : BitVec 12) (d : Byte) :
    Result.Alike (stbSpace sp idx d s) (stbSpace sp idx d u) := by
  by_cases hc : s.cfgstate = .code
  · obtain ⟨v, rfl, hloc⟩ := h.exists_withScratchOf hc
    obtain rfl | rfl := hsp
    · exact .ite (fun _ => .err h _) fun _ => .ite (fun _ => .err h _) fun _ =>
        .ok (.of_scratch ((s.writeSpace .msg idx.toNat d).setStage .idle) v hloc) 0
    · exact .ite (fun _ => .err h _) fun _ => .ite (fun _ => .err h _) fun _ =>
        .ok (.of_scratch ((s.writeSpace .ecc idx.toNat d).setStage .idle) v hloc) 0
  · rw [stbSpace, stbSpace, if_pos hc, if_pos (h.cfgstate ▸ hc)]
    exact .err h _

theorem stbBody_alike (h : Indistinct s u) (space : BitVec 4) (idx : BitVec 12) (d : Byte) :
    Result.Alike (stbBody space idx d s) (stbBody space idx d u) := by
  unfold stbBody
  split
  · exact stbSpace_alike h (.inl rfl) idx d
  · exact stbSpace_alike h (.inr rfl) idx d
  · exact .err h _

/-- A usable space reads alike within its length (R39, R45). -/
theorem Indistinct.readSpace (h : Indistinct s u) {sp : Space} {idx : Nat} (hu : s.spaceUsable sp = true)
    (hlen : idx < s.spaceLen sp) : u.readSpace sp idx = s.readSpace sp idx := by
  have hfield : s.cfgstate ≠ .empty → u.log = s.log ∧ u.antilog = s.antilog := fun hc => (h.field hc).2
  have hcode : s.cfgstate = .code → ∃ v, u = s.withScratchOf v ∧
      ∀ idx, idx < s.nerr.toNat → v.loc.getD idx 0 = s.loc.getD idx 0 := h.exists_withScratchOf
  cases sp with
  | log => rw [State.readSpace, (hfield (by simpa [State.spaceUsable] using hu)).1, State.readSpace]
  | antilog => rw [State.readSpace, (hfield (by simpa [State.spaceUsable] using hu)).2, State.readSpace]
  | loc =>
    obtain ⟨v, rfl, hloc⟩ := hcode (by simpa [State.spaceUsable] using hu)
    exact hloc idx hlen
  | _ =>
    obtain ⟨v, rfl, -⟩ := hcode (by simpa [State.spaceUsable] using hu)
    rfl

theorem ldBody_alike (h : Indistinct s u) (space : BitVec 4) (idx : Half) :
    Result.Alike (ldBody space idx s) (ldBody space idx u) := by
  unfold ldBody
  split
  · exact .err h _
  next sp _ =>
  have hus : u.spaceUsable sp = s.spaceUsable sp := by
    obtain ⟨v, rfl⟩ := h.exists_withHiddenOf
    cases sp <;> rfl
  have hlen : u.spaceLen sp = s.spaceLen sp := by
    obtain ⟨v, rfl⟩ := h.exists_withHiddenOf
    cases sp <;> rfl
  rw [hus, hlen]
  refine .ite (fun _ => .err h _) fun hb => .ite (fun _ => .err h _) fun hl => ?_
  rw [h.readSpace (by simpa using hb) (by omega)]
  exact .ok h _

/-! ## Codec commands -/

theorem encodeBody_alike (h : Indistinct s u) : Result.Alike (encodeBody s) (encodeBody u) := by
  by_cases hc : s.cfgstate = .code
  · obtain ⟨v, rfl, hloc⟩ := h.exists_withScratchOf hc
    exact .ite (fun _ => .err h _) fun _ =>
      .ok (.of_scratch ((s.storeEcc (s.divider.remainder s.k.toNat s.msg)).setStage .idle) v hloc) 0
  · rw [encodeBody, encodeBody, if_pos hc, if_pos (h.cfgstate ▸ hc)]
    exact .err h _

/-- The preconditions of a decoder command come out alike; its body matters in a derived code only. -/
theorem inCode_alike (h : Indistinct s u) (required : Option Stage) {body body' : Result}
    (hb : s.cfgstate = .code → Result.Alike body body') :
    Result.Alike (s.inCode required body) (u.inCode required body') := by
  have hst : u.stage = s.stage := by
    obtain ⟨v, rfl⟩ := h.exists_withHiddenOf
    rfl
  rw [State.inCode_eq, State.inCode_eq, h.cfgstate, hst]
  exact .ite (fun hc => hb hc.1) fun _ => .err h _

/-- `SYND` resets `NERR`, so nothing of `LOC` is visible after it. -/
theorem syndBody_indistinct (h : Indistinct s u) (hc : s.cfgstate = .code) :
    Indistinct (syndBody s) (syndBody u) := by
  obtain ⟨v, rfl, -⟩ := h.exists_withScratchOf hc
  exact .of_scratch (syndBody s) { v with rem := s.receivedRem } fun idx hi => absurd hi (Nat.not_lt_zero idx)

/-- The solver reads the syndromes and the tables, never what it left before (R37, R130). -/
theorem Indistinct.storeLocator (h : Indistinct s u) (hc : s.cfgstate = .code) (st : Stage) :
    Indistinct ((s.storeLocator s.solve).setStage st) ((u.storeLocator u.solve).setStage st) := by
  obtain ⟨v, rfl, hloc⟩ := h.exists_withScratchOf hc
  exact .of_scratch ((s.storeLocator s.solve).setStage st) { v with bms := s.solve.scratch } hloc

theorem bmsolveBody_alike (h : Indistinct s u) (hc : s.cfgstate = .code) :
    Result.Alike (bmsolveBody s) (bmsolveBody u) := by
  have hfail := h.storeLocator hc .failed
  have hok := h.storeLocator hc .locator
  obtain ⟨v, rfl, -⟩ := h.exists_withScratchOf hc
  exact .ite (fun _ => .err hfail _) fun _ => .ok hok _

/-- The search reads the locator and the tables, and writes `LOC` whole (R133). -/
theorem Indistinct.storeRoots (h : Indistinct s u) (hc : s.cfgstate = .code) (st : Stage) :
    Indistinct ((s.storeRoots s.search).setStage st) ((u.storeRoots u.search).setStage st) := by
  obtain ⟨v, rfl, -⟩ := h.exists_withScratchOf hc
  exact .of_scratch ((s.storeRoots s.search).setStage st) { v with loc := locEntries s.t.toNat s.search } fun _ _ => rfl

theorem chienBody_alike (h : Indistinct s u) (hc : s.cfgstate = .code) :
    Result.Alike (chienBody s) (chienBody u) := by
  have hfail := h.storeRoots hc .failed
  have hok := h.storeRoots hc .roots
  obtain ⟨v, rfl, -⟩ := h.exists_withScratchOf hc
  exact .ite (fun _ => .err hfail _) fun _ => .ok hok _

/-- `CORRECT` reads `LOC` below `NERR` only (R137). -/
theorem correctBody_indistinct (h : Indistinct s u) (hc : s.cfgstate = .code) :
    Indistinct (correctBody s) (correctBody u) := by
  obtain ⟨v, rfl, hloc⟩ := h.exists_withScratchOf hc
  have hcorr : (s.withScratchOf v).corrected = s.corrected :=
    List.foldl_ext _ _ _ fun bufs idx hidx => by
      show correctOne s.k.toNat s.ebits.toNat bufs (v.loc.getD idx 0).toNat = _
      rw [hloc idx (List.mem_range.1 hidx)]
  rw [correctBody, correctBody, hcorr]
  exact .of_scratch (correctBody s) v hloc

theorem correct_alike (h : Indistinct s u) (hc : s.cfgstate = .code) :
    Result.Alike (.ok s.nerr (correctBody s)) (.ok u.nerr (correctBody u)) := by
  have hnerr : u.nerr = s.nerr := h.csr .nerr
  rw [hnerr]
  exact .ok (correctBody_indistinct h hc) _

/-- `DECODE` runs the four stages, each alike on indistinct states (R138). -/
theorem decodeBody_alike (h : Indistinct s u) (hc : s.cfgstate = .code) :
    Result.Alike (decodeBody s) (decodeBody u) := by
  have hs := syndBody_indistinct h hc
  have hz : (syndBody u).synz = (syndBody s).synz := by
    obtain ⟨v, hv⟩ := hs.exists_withHiddenOf
    rw [hv]; rfl
  unfold decodeBody
  rw [hz]
  refine .ite (fun _ => .ok (hs.setStage .done) 0) fun _ => ?_
  have hb := bmsolveBody_alike hs hc
  obtain ⟨-, hbs⟩ | ⟨-, hbs⟩ := bmsolveBody_cases (syndBody s)
  · rw [hbs] at hb ⊢
    obtain ⟨u2, hbu, h2⟩ := hb.exists_ok
    have hch := chienBody_alike h2 hc
    rw [hbu]
    dsimp only
    obtain ⟨-, hcs⟩ | ⟨-, hcs⟩ := chienBody_cases (((syndBody s).storeLocator (syndBody s).solve).setStage .locator)
    · rw [hcs] at hch ⊢
      obtain ⟨u3, hcu, h3⟩ := hch.exists_ok
      rw [hcu]
      exact correct_alike h3 hc
    · rw [hcs] at hch ⊢
      obtain ⟨u3, hcu, h3⟩ := hch.exists_err
      rw [hcu]
      exact .err h3 _
  · rw [hbs] at hb ⊢
    obtain ⟨u2, hbu, h2⟩ := hb.exists_err
    rw [hbu]
    exact .err h2 _

/-! ## Commands, steps and runs -/

/-- Every command does alike on indistinct states. -/
theorem commandBody_alike (h : Indistinct s u) (i : Instr) : Result.Alike (commandBody i s) (commandBody i u) := by
  cases i with
  | nop => exact .ok h 0
  | clear => exact .ok h.clear 0
  | wrcsr csr x => exact wrcsrBody_alike h csr x
  | rdcsr csr => exact rdcsrBody_alike h csr
  | gfbuild => exact gfbuildBody_alike h
  | derive => exact deriveBody_alike h
  | gfli rd x => exact gfliBody_alike h rd x
  | gfrd r => exact gfrdBody_alike h r
  | gfadd rd a b => exact gfWrite_alike h rd fun hc => by rw [h.readG hc, h.readG hc]; exact ⟨rfl, rfl⟩
  | gfmul rd a b => exact gfWrite_alike h rd fun hc => by rw [h.readG hc, h.readG hc, h.tables hc]; exact ⟨rfl, rfl⟩
  | gfdiv rd a b => exact gfdivBody_alike h rd a b
  | gflog rd a => exact gfWrite_alike h rd fun hc => by rw [h.readG hc, h.tables hc]; exact ⟨rfl, rfl⟩
  | gfalog rd a => exact gfWrite_alike h rd fun hc => by rw [h.readG hc, h.tables hc]; exact ⟨rfl, rfl⟩
  | stb space idx d => exact stbBody_alike h space idx d
  | ld space idx => exact ldBody_alike h space idx
  | encode => exact encodeBody_alike h
  | decode => exact inCode_alike h none (decodeBody_alike h)
  | synd =>
    refine inCode_alike h none fun hc => ?_
    have hs := syndBody_indistinct h hc
    have hflags : (syndBody u).flags = (syndBody s).flags := hs.csr .flags
    rw [hflags]
    exact .ok hs _
  | bmsolve => exact inCode_alike h (some .synd) (bmsolveBody_alike h)
  | chien => exact inCode_alike h (some .locator) (chienBody_alike h)
  | correct => exact inCode_alike h (some .roots) (correct_alike h)

/-- A command word, legal or not, leaves indistinct states indistinct. -/
theorem execWord_indistinct (h : Indistinct s u) (w : Word) :
    ∃ s' u', execWord w s = .next s' ∧ execWord w u = .next u' ∧ Indistinct s' u' := by
  unfold execWord
  split
  next i _ =>
    rw [exec_eq, exec_eq, Result.finish_eq, Result.finish_eq]
    exact ⟨_, _, rfl, rfl, (commandBody_alike h i).report⟩
  · exact ⟨_, _, rfl, rfl, h.report _ _⟩

/-- So does every step (R43). -/
theorem step_indistinct (h : Indistinct s u) : ∃ s' u', step s = .next s' ∧ step u = .next u' ∧ Indistinct s' u' := by
  unfold step
  rw [h.port]
  split
  · exact ⟨_, _, rfl, rfl, h⟩
  next ev rest _ =>
    have hp := h.withPort rest
    cases ev with
    | command w => exact execWord_indistinct hp w
    | reset => exact ⟨_, _, rfl, rfl, hp.clear⟩

/-- The responses of a run are those of its steps, and indistinct states agree on each. -/
theorem responses_indistinct (k : Nat) (h : Indistinct s u) : responses k u = responses k s := by
  induction k generalizing s u with
  | zero => rfl
  | succ k ih =>
    obtain ⟨s', u', hs, hu, h'⟩ := step_indistinct h
    rw [responses, responses, hs, hu, h.port]
    cases s.port with
    | nil => exact ih h'
    | cons ev rest =>
      cases ev with
      | command w => exact congrArg₂ List.cons h'.rsp (ih h')
      | reset => exact ih h'

end Noninterference

/-- Settles O2: the step lemma, then induction over the steps of a run. -/
theorem unspecifiedStateIsUnobservable : Obligations.UnspecifiedStateIsUnobservable := by
  intro s u h
  refine ⟨fun s' hs => ?_, fun k => responses_indistinct k h⟩
  obtain ⟨s'', u', hs'', hu, h'⟩ := step_indistinct h
  rw [hs, Host.Outcome.next.injEq] at hs''
  exact ⟨u', hu, hs'' ▸ h'⟩

end Sys2Proof.Machine
end

section
/-! The canonical form of the byte buffers (log entry 4): every step keeps it, and a canonical buffer is determined by
what it reads as. -/

namespace Sys2Proof.Machine

/-! ## Steps -/

/-- The port is no part of the buffers. -/
theorem BuffersOk.withPort {s : State} (h : BuffersOk s) (p : List PortEvent) : BuffersOk { s with port := p } := h

/-- Every port event keeps the buffers canonical: a command word, legal or not, and the hardware reset. -/
theorem portEvent_buffersOk {s u : State} {ev : PortEvent} (hs : BuffersOk s) (h : portEvent ev s = .next u) :
    BuffersOk u := by
  cases ev with
  | reset =>
    cases h
    exact State.reset_buffers_wf
  | command w =>
    unfold portEvent execWord at h
    dsimp only at h
    split at h
    · obtain ⟨r, he, rfl⟩ := exec_effect h
      exact he.buffersOk hs
    · cases h
      exact hs

/-- Settles O23: a step takes an event off the port and carries it out. -/
theorem stepKeepsBuffersCanonical : Obligations.StepKeepsBuffersCanonical := by
  intro s t hs h
  unfold step at h
  split at h
  · cases h; exact hs
  · exact portEvent_buffersOk (hs.withPort _) h

/-! ## Uniqueness -/

@[simp] theorem Memory.read_head (a : Nat) (v : Byte) (rest : Memory) : Memory.read ((a, v) :: rest) a = v := by
  simp [Memory.read_cell]

/-- A canonical buffer lists no byte that reads as unlisted. -/
theorem Memory.read_head_ne_zero {a : Nat} {v : Byte} {rest : Memory} (h : Memory.wf ((a, v) :: rest) = true) :
    Memory.read ((a, v) :: rest) a ≠ 0 := by
  rw [Memory.read_head]
  exact ((Memory.wf_cons_iff a v rest).1 h).1

/-- A canonical buffer without its first cell reads as before, and as unlisted where that cell was. -/
theorem Memory.read_tail {a : Nat} {v : Byte} {rest : Memory} (h : Memory.wf ((a, v) :: rest) = true) (i : Nat) :
    Memory.read rest i = if i = a then 0 else Memory.read ((a, v) :: rest) i := by
  obtain ⟨-, hhead, -⟩ := (Memory.wf_cons_iff a v rest).1 h
  have hlow : i ≤ a → Memory.read rest i = 0 := fun hle =>
    Memory.read_below rest i fun c hc => hle.trans_lt (hhead c hc)
  rw [Memory.read_cell]
  obtain hlt | rfl | hgt := lt_trichotomy i a
  · rw [hlow hlt.le, if_neg hlt.ne, if_neg hlt.ne', if_pos hlt]
  · rw [hlow le_rfl, if_pos rfl]
  · rw [if_neg hgt.ne', if_neg hgt.ne, if_neg hgt.not_gt]

/-- A buffer that reads like a canonical one begins at or below the index where that one begins. -/
theorem Memory.head_le {a b : Nat} {v w : Byte} {rest rest' : Memory} (h : Memory.wf ((a, v) :: rest) = true)
    (hread : Memory.read ((a, v) :: rest) a = Memory.read ((b, w) :: rest') a) : b ≤ a := by
  by_contra! hlt
  have hunlisted : Memory.read ((b, w) :: rest') a = 0 := Memory.read_below _ a (by simpa using hlt)
  exact Memory.read_head_ne_zero h (hread.trans hunlisted)

/-- Settles O24, by induction on the cells: two canonical buffers that read alike begin at the same index, with the
same byte, and their tails read alike. -/
theorem canonicalBuffersAreUnique : Obligations.CanonicalBuffersAreUnique := by
  intro x
  induction x with
  | nil =>
    intro y _ hy hread
    cases y with
    | nil => rfl
    | cons d ds => exact absurd (hread d.1).symm (Memory.read_head_ne_zero hy)
  | cons c cs ih =>
    intro y hx hy hread
    cases y with
    | nil => exact absurd (hread c.1) (Memory.read_head_ne_zero hx)
    | cons d ds =>
      obtain ⟨a, v⟩ := c
      obtain ⟨b, w⟩ := d
      obtain rfl : a = b := le_antisymm (Memory.head_le hy (hread b).symm) (Memory.head_le hx (hread a))
      obtain rfl : v = w := by simpa using hread a
      have htails : ∀ i, Memory.read cs i = Memory.read ds i := fun i => by
        rw [Memory.read_tail hx, Memory.read_tail hy, hread]
      rw [ih ds (Memory.wf_tail hx) (Memory.wf_tail hy) htails]

end Sys2Proof.Machine
end

section
/-! The encoding (rules R63 to R75): a word selects a row of R74 by the values of its fields, a word of a row decodes to
the row's command with the word's own fields as operands, and a word is put together again from its fields. -/

namespace Sys2Proof.Machine

/-! ## A word is put together from its fields -/

theorem field_append_field (w : Word) (lo a b : Nat) : field w (lo + b) a ++ field w lo b = field w lo (a + b) :=
  BitVec.extractLsb'_append_extractLsb'_eq_extractLsb' rfl

theorem field_whole (w : Word) : field w 0 32 = w := BitVec.extractLsb'_eq_self

/-! The hypothesis on the opcode is about its number, as the arms of `decode` are. -/

section Formats

variable {w : Word} {op : BitVec 8}

/-- Format Z (R64): the opcode and zero bits. -/
theorem word_of_formatZ (hop : (field w 24 8).toNat = op.toNat) (hzero : (field w 0 24 == 0) = true) :
    op ++ 0#24 = w := by
  have hw : field w 24 8 ++ field w 0 24 = w := by
    rw [field_append_field w 0 8 24]
    exact field_whole w
  rwa [BitVec.eq_of_toNat_eq hop, eq_of_beq hzero] at hw

/-- Format C (R65). -/
theorem word_of_formatC (hop : (field w 24 8).toNat = op.toNat) : op ++ field w 16 8 ++ field w 0 16 = w := by
  rw [← BitVec.eq_of_toNat_eq hop, field_append_field w 16 8 8, field_append_field w 0 16 16]
  exact field_whole w

/-- Format CR (R66): format C with zero bits for the immediate. -/
theorem word_of_formatCR (hop : (field w 24 8).toNat = op.toNat) (hzero : (field w 0 16 == 0) = true) :
    op ++ field w 16 8 ++ 0#16 = w := by
  have hw := word_of_formatC hop
  rwa [eq_of_beq hzero] at hw

/-- What the formats I, R1, R2 and L divide: the opcode, two 4-bit fields and a 16-bit field. -/
theorem opcode_append_nibbles_append_half (hop : (field w 24 8).toNat = op.toNat) :
    op ++ field w 20 4 ++ field w 16 4 ++ field w 0 16 = w := by
  rw [← BitVec.eq_of_toNat_eq hop, field_append_field w 20 8 4, field_append_field w 16 12 4,
    field_append_field w 0 16 16]
  exact field_whole w

/-- Formats I and L (R67, R72). -/
theorem word_of_formatIL (hop : (field w 24 8).toNat = op.toNat) (hzero : (field w 16 4 == 0) = true) :
    op ++ field w 20 4 ++ 0#4 ++ field w 0 16 = w := by
  have hw := opcode_append_nibbles_append_half hop
  rwa [eq_of_beq hzero] at hw

/-- Format R1 (R68). -/
theorem word_of_formatR1 (hop : (field w 24 8).toNat = op.toNat)
    (hzero : (field w 20 4 == 0 && field w 0 16 == 0) = true) : op ++ 0#4 ++ field w 16 4 ++ 0#16 = w := by
  have hw := opcode_append_nibbles_append_half hop
  obtain ⟨hrd, hlow⟩ := Bool.and_eq_true_iff.1 hzero
  rwa [eq_of_beq hrd, eq_of_beq hlow] at hw

/-- Format R2 (R69). -/
theorem word_of_formatR2 (hop : (field w 24 8).toNat = op.toNat) (hzero : (field w 0 16 == 0) = true) :
    op ++ field w 20 4 ++ field w 16 4 ++ 0#16 = w := by
  have hw := opcode_append_nibbles_append_half hop
  rwa [eq_of_beq hzero] at hw

/-- Format R3 (R70). -/
theorem word_of_formatR3 (hop : (field w 24 8).toNat = op.toNat) (hzero : (field w 0 12 == 0) = true) :
    op ++ field w 20 4 ++ field w 16 4 ++ field w 12 4 ++ 0#12 = w := by
  have hw : op ++ field w 20 4 ++ field w 16 4 ++ field w 12 4 ++ field w 0 12 = w := by
    rw [← BitVec.eq_of_toNat_eq hop, field_append_field w 20 8 4, field_append_field w 16 12 4,
      field_append_field w 12 16 4, field_append_field w 0 20 12]
    exact field_whole w
  rwa [eq_of_beq hzero] at hw

/-- Format S (R71). -/
theorem word_of_formatS (hop : (field w 24 8).toNat = op.toNat) :
    op ++ field w 20 4 ++ field w 8 12 ++ field w 0 8 = w := by
  rw [← BitVec.eq_of_toNat_eq hop, field_append_field w 20 8 4, field_append_field w 8 12 12,
    field_append_field w 0 24 8]
  exact field_whole w

end Formats

/-! ## A part of words put side by side, counted from the right -/

theorem extract_second {a b c : Nat} (x : BitVec a) (y : BitVec b) (z : BitVec c) :
    (x ++ y ++ z).extractLsb' c b = y := by
  rw [extract_append_hi _ _ _ _ le_rfl, Nat.sub_self, BitVec.extractLsb'_append_eq_right]

theorem extract_third {a b c d : Nat} (x : BitVec a) (y : BitVec b) (z : BitVec c) (u : BitVec d) :
    (x ++ y ++ z ++ u).extractLsb' (c + d) b = y := by
  rw [extract_append_hi _ _ _ _ (Nat.le_add_left d c), Nat.add_sub_cancel, extract_second]

theorem extract_fourth {a b c d e : Nat} (x : BitVec a) (y : BitVec b) (z : BitVec c) (u : BitVec d) (v : BitVec e) :
    (x ++ y ++ z ++ u ++ v).extractLsb' (c + d + e) b = y := by
  rw [extract_append_hi _ _ _ _ (Nat.le_add_left e (c + d)), Nat.add_sub_cancel, extract_third]

/-! ## A row is selected field by field -/

/-- A word that selects a row has the row's value in every field that the row's mask covers. -/
theorem OpcodeRow.selects.field_eq {row : OpcodeRow} {w : Word} (h : row.selects w) (lo n : Nat)
    (hmask : field row.mask lo n = BitVec.allOnes n) : field w lo n = field row.value lo n := by
  have hfield : field w lo n &&& field row.mask lo n = field row.value lo n := by
    rw [← h]
    exact BitVec.extractLsb'_and.symm
  rwa [hmask, BitVec.and_allOnes] at hfield

/-- Every row's mask covers the opcode. -/
theorem opcodeMap_mask_covers_opcode : ∀ row ∈ opcodeMap, field row.mask 24 8 = BitVec.allOnes 8 := by decide

/-- No two rows have the same opcode. -/
theorem opcodeMap_opcode_injective :
    ∀ row ∈ opcodeMap, ∀ row' ∈ opcodeMap, field row.value 24 8 = field row'.value 24 8 → row = row' := by
  decide

/-- A word selects at most one row (R75): its opcode is that of the row. -/
theorem selected_row_unique {w : Word} {row row' : OpcodeRow} (hrow : row ∈ opcodeMap) (hrow' : row' ∈ opcodeMap)
    (h : row.selects w) (h' : row'.selects w) : row = row' := by
  refine opcodeMap_opcode_injective row hrow row' hrow' ?_
  rw [← h.field_eq 24 8 (opcodeMap_mask_covers_opcode row hrow),
    ← h'.field_eq 24 8 (opcodeMap_mask_covers_opcode row' hrow')]

/-- Whatever its operands, a command's row stands in the opcode map. -/
theorem opcodeRow_mem (i : Instr) : opcodeRow i ∈ opcodeMap := by
  cases i <;> simp [opcodeMap, opcodeRow]

/-- Every row of the opcode map is the row of some command. -/
theorem exists_opcodeRow_of_mem {row : OpcodeRow} (h : row ∈ opcodeMap) : ∃ i, opcodeRow i = row := by
  obtain ⟨i, -, rfl⟩ := List.mem_map.1 h
  exact ⟨i, rfl⟩

/-- The encoding of a command selects the command's row. -/
theorem encode_selects_row (i : Instr) : (opcodeRow i).selects (encode i) := by
  cases i with
  | nop => exact Laws.EncodingSelectsRow.nop
  | clear => exact Laws.EncodingSelectsRow.clear
  | wrcsr csr imm16 => exact Laws.EncodingSelectsRow.wrcsr csr imm16
  | rdcsr csr => exact Laws.EncodingSelectsRow.rdcsr csr
  | gfbuild => exact Laws.EncodingSelectsRow.gfbuild
  | derive => exact Laws.EncodingSelectsRow.derive
  | gfli rd imm16 => exact Laws.EncodingSelectsRow.gfli rd imm16
  | gfrd rs1 => exact Laws.EncodingSelectsRow.gfrd rs1
  | gfadd rd rs1 rs2 => exact Laws.EncodingSelectsRow.gfadd rd rs1 rs2
  | gfmul rd rs1 rs2 => exact Laws.EncodingSelectsRow.gfmul rd rs1 rs2
  | gfdiv rd rs1 rs2 => exact Laws.EncodingSelectsRow.gfdiv rd rs1 rs2
  | gflog rd rs1 => exact Laws.EncodingSelectsRow.gflog rd rs1
  | gfalog rd rs1 => exact Laws.EncodingSelectsRow.gfalog rd rs1
  | stb space idx12 data8 => exact Laws.EncodingSelectsRow.stb space idx12 data8
  | ld space idx16 => exact Laws.EncodingSelectsRow.ld space idx16
  | encode => exact Laws.EncodingSelectsRow.encode
  | decode => exact Laws.EncodingSelectsRow.decode
  | synd => exact Laws.EncodingSelectsRow.synd
  | bmsolve => exact Laws.EncodingSelectsRow.bmsolve
  | chien => exact Laws.EncodingSelectsRow.chien
  | correct => exact Laws.EncodingSelectsRow.correct

/-! ## A word that selects a row decodes to the row's command -/

/-- The command `i` with its operands read anew from the fields of `w` where its format has them (R64 to R73). -/
def readOperands (w : Word) (i : Instr) : Instr :=
  match i with
  | .wrcsr _ _ => .wrcsr (field w 16 8) (field w 0 16)
  | .rdcsr _ => .rdcsr (field w 16 8)
  | .gfli _ _ => .gfli (field w 20 4) (field w 0 16)
  | .gfrd _ => .gfrd (field w 16 4)
  | .gfadd _ _ _ => .gfadd (field w 20 4) (field w 16 4) (field w 12 4)
  | .gfmul _ _ _ => .gfmul (field w 20 4) (field w 16 4) (field w 12 4)
  | .gfdiv _ _ _ => .gfdiv (field w 20 4) (field w 16 4) (field w 12 4)
  | .gflog _ _ => .gflog (field w 20 4) (field w 16 4)
  | .gfalog _ _ => .gfalog (field w 20 4) (field w 16 4)
  | .stb _ _ _ => .stb (field w 20 4) (field w 8 12) (field w 0 8)
  | .ld _ _ => .ld (field w 20 4) (field w 0 16)
  | i => i

/-- An encoded command's operands stand in the fields they are read from. -/
theorem readOperands_encode (i : Instr) : readOperands (encode i) i = i := by
  cases i with
  | wrcsr csr imm16 =>
    exact congr (congrArg Instr.wrcsr (extract_second _ csr imm16)) BitVec.extractLsb'_append_eq_right
  | rdcsr csr => exact congrArg Instr.rdcsr (extract_second _ csr 0#16)
  | gfli rd imm16 =>
    exact congr (congrArg Instr.gfli (extract_third _ rd 0#4 imm16)) BitVec.extractLsb'_append_eq_right
  | gfrd rs1 => exact congrArg Instr.gfrd (extract_second _ rs1 0#16)
  | gfadd rd rs1 rs2 =>
    exact congr (congr (congrArg Instr.gfadd (extract_fourth _ rd rs1 rs2 0#12)) (extract_third _ rs1 rs2 0#12))
      (extract_second _ rs2 0#12)
  | gfmul rd rs1 rs2 =>
    exact congr (congr (congrArg Instr.gfmul (extract_fourth _ rd rs1 rs2 0#12)) (extract_third _ rs1 rs2 0#12))
      (extract_second _ rs2 0#12)
  | gfdiv rd rs1 rs2 =>
    exact congr (congr (congrArg Instr.gfdiv (extract_fourth _ rd rs1 rs2 0#12)) (extract_third _ rs1 rs2 0#12))
      (extract_second _ rs2 0#12)
  | gflog rd rs1 =>
    exact congr (congrArg Instr.gflog (extract_third _ rd rs1 0#16)) (extract_second _ rs1 0#16)
  | gfalog rd rs1 =>
    exact congr (congrArg Instr.gfalog (extract_third _ rd rs1 0#16)) (extract_second _ rs1 0#16)
  | stb space idx12 data8 =>
    exact congr (congr (congrArg Instr.stb (extract_third _ space idx12 data8)) (extract_second _ idx12 data8))
      BitVec.extractLsb'_append_eq_right
  | ld space idx16 =>
    exact congr (congrArg Instr.ld (extract_third _ space 0#4 idx16)) BitVec.extractLsb'_append_eq_right
  | nop | clear | gfbuild | derive | encode | decode | synd | bmsolve | chien | correct => rfl

/-- A field of a literal word. -/
theorem field_ofNat (x lo n : Nat) : field (BitVec.ofNat 32 x) lo n = BitVec.ofNat n ((x % 2 ^ 32) >>> lo) := by
  simp [field, BitVec.extractLsb']

/-- The decoder reads from a word that selects the row of a command that command, with the word's fields as operands:
the opcode chooses the arm, and the bits its format marks zero are zero. -/
theorem decode_of_selects {w : Word} {i : Instr} (h : (opcodeRow i).selects w) : decode w = .ok (readOperands w i) := by
  have hop := h.field_eq 24 8 (opcodeMap_mask_covers_opcode _ (opcodeRow_mem i))
  cases i with
  | wrcsr | stb => simp [decode, hop, opcodeRow, field_ofNat, readOperands]
  | rdcsr | gflog | gfalog =>
    have hzero := h.field_eq 0 16 (by simp [opcodeRow, field_ofNat])
    simp [decode, hop, hzero, opcodeRow, field_ofNat, readOperands]
  | gfli | ld =>
    have hzero := h.field_eq 16 4 (by simp [opcodeRow, field_ofNat])
    simp [decode, hop, hzero, opcodeRow, field_ofNat, readOperands]
  | gfrd =>
    have hrd := h.field_eq 20 4 (by simp [opcodeRow, field_ofNat])
    have hlow := h.field_eq 0 16 (by simp [opcodeRow, field_ofNat])
    simp [decode, hop, hrd, hlow, opcodeRow, field_ofNat, readOperands]
  | gfadd | gfmul | gfdiv =>
    have hzero := h.field_eq 0 12 (by simp [opcodeRow, field_ofNat])
    simp [decode, hop, hzero, opcodeRow, field_ofNat, readOperands]
  | nop | clear | gfbuild | derive | encode | decode | synd | bmsolve | chien | correct =>
    have hzero := h.field_eq 0 24 (by simp [opcodeRow, field_ofNat])
    simp [decode, formatZ, hop, hzero, opcodeRow, field_ofNat, readOperands]

/-- What the checked result of a format encodes to. -/
theorem encode_of_zeroBits {w : Word} {op : BitVec 8} {zero : Bool} {i j : Instr} (h : zeroBits op zero i = .ok j)
    (henc : zero = true → encode i = w) : encode j = w := by
  obtain ⟨hzero, rfl⟩ := zeroBits_ok.1 h
  exact henc hzero

/-- The encoder undoes the decoder: each arm of the decoder keeps every field of the word, as the opcode, as an operand
or as bits that are zero. -/
theorem encode_of_decode {w : Word} {i : Instr} (h : decode w = .ok i) : encode i = w := by
  unfold decode at h
  split at h
  next hop => exact encode_of_zeroBits h (word_of_formatZ hop)
  next hop => exact encode_of_zeroBits h (word_of_formatZ hop)
  next hop => exact Except.ok.inj h ▸ word_of_formatC hop
  next hop => exact encode_of_zeroBits h (word_of_formatCR hop)
  next hop => exact encode_of_zeroBits h (word_of_formatZ hop)
  next hop => exact encode_of_zeroBits h (word_of_formatZ hop)
  next hop => exact encode_of_zeroBits h (word_of_formatIL hop)
  next hop => exact encode_of_zeroBits h (word_of_formatR1 hop)
  next hop => exact encode_of_zeroBits h (word_of_formatR3 hop)
  next hop => exact encode_of_zeroBits h (word_of_formatR3 hop)
  next hop => exact encode_of_zeroBits h (word_of_formatR3 hop)
  next hop => exact encode_of_zeroBits h (word_of_formatR2 hop)
  next hop => exact encode_of_zeroBits h (word_of_formatR2 hop)
  next hop => exact Except.ok.inj h ▸ word_of_formatS hop
  next hop => exact encode_of_zeroBits h (word_of_formatIL hop)
  next hop => exact encode_of_zeroBits h (word_of_formatZ hop)
  next hop => exact encode_of_zeroBits h (word_of_formatZ hop)
  next hop => exact encode_of_zeroBits h (word_of_formatZ hop)
  next hop => exact encode_of_zeroBits h (word_of_formatZ hop)
  next hop => exact encode_of_zeroBits h (word_of_formatZ hop)
  next hop => exact encode_of_zeroBits h (word_of_formatZ hop)
  next => cases h

/-- A word decodes to a command exactly when it is the command's encoding (R63 to R75). -/
theorem decode_eq_ok_iff {w : Word} {i : Instr} : decode w = .ok i ↔ encode i = w := by
  refine ⟨encode_of_decode, ?_⟩
  rintro rfl
  rw [decode_of_selects (encode_selects_row i), readOperands_encode]

/-- Settles O7: the encoding of a command selects its row, and the operands are read back. -/
theorem decodeOfEncode : Obligations.DecodeOfEncode := fun _ => decode_eq_ok_iff.2 rfl

/-- Settles O8. -/
theorem encodeOfDecode : Obligations.EncodeOfDecode := fun _ _ => encode_of_decode

/-! ## Words on the port -/

theorem execWord_of_ok {w : Word} {i : Instr} (h : decode w = .ok i) (s : State) : execWord w s = exec i s := by
  rw [execWord, h]

/-- A word that decodes to no command raises `IllegalCommand` (R75, R150). -/
theorem execWord_of_not_ok {w : Word} (h : ¬∃ i, decode w = .ok i) (s : State) :
    execWord w s = .next { s with rsp := response 5 0, lasterr := 5 } := by
  cases hd : decode w with
  | ok i => exact absurd ⟨i, hd⟩ h
  | error e =>
    rw [execWord, hd]
    rfl

theorem step_command {s : State} {w : Word} {rest : List PortEvent} (h : s.port = .command w :: rest) :
    step s = execWord w { s with port := rest } := by
  rw [step, h]
  rfl

/-- A word decodes exactly when it selects a row (R75). -/
theorem exists_decode_iff_selects {w : Word} : (∃ i, decode w = .ok i) ↔ ∃ row ∈ opcodeMap, row.selects w := by
  constructor
  · rintro ⟨i, h⟩
    obtain rfl := decode_eq_ok_iff.1 h
    exact ⟨opcodeRow i, opcodeRow_mem i, encode_selects_row i⟩
  · rintro ⟨row, hrow, h⟩
    obtain ⟨i, rfl⟩ := exists_opcodeRow_of_mem hrow
    exact ⟨_, decode_of_selects h⟩

/-- Settles O6: a selected row is the one of the word's opcode, and selecting a row is decoding. -/
theorem decodingIsTotalAndUnambiguous : Obligations.DecodingIsTotalAndUnambiguous := by
  intro w
  refine ⟨fun row hrow row' hrow' => selected_row_unique hrow hrow', fun i h => ?_, exists_decode_iff_selects.2,
    fun h => execWord_of_not_ok (mt exists_decode_iff_selects.1 h)⟩
  obtain rfl := decode_eq_ok_iff.1 h
  exact ⟨opcodeRow_mem i, encode_selects_row i⟩

/-- Settles O4. -/
theorem stepRunsTheDecodedCommand : Obligations.StepRunsTheDecodedCommand := fun _ _ _ hport =>
  ⟨step_command hport, fun _ h => (step_command hport).trans (execWord_of_ok h _)⟩

/-- Settles O9: each word is the encoding of its command. -/
theorem specWordsDecode : Obligations.SpecWordsDecode := by
  simp only [Obligations.SpecWordsDecode, decode_eq_ok_iff]
  decide

end Sys2Proof.Machine
end

section
/-! The system commands NOP, CLEAR, WRCSR and RDCSR (R82 to R85), and the words of their formats that are illegal. -/

namespace Sys2Proof.Machine

/-! ## The end of a command, from how its body ends (R81) -/

theorem exec_of_body_ok {i : Instr} {s u : State} {d : Half} (h : commandBody i s = .ok d u) :
    exec i s = .next (u.report 0 d) := by
  rw [exec_eq, h, Result.finish_ok]

theorem exec_of_body_err {i : Instr} {s u : State} {e : Err} (h : commandBody i s = .err e u) :
    exec i s = .next (u.report e.code 0) := by
  rw [exec_eq, h, Result.finish_err]

/-! ## Words with a 1 in a must-be-zero bit -/

/-- A word that the decoder rejects raises `IllegalCommand` (R75, R150). -/
theorem execWord_of_error {w : Word} {e : DecodeError} (h : decode w = .error e) (s : State) :
    execWord w s = .next { s with rsp := response 5 0, lasterr := 5 } :=
  execWord_of_not_ok (by simp [h]) s

/-- A word of format Z that carries any operand bit is illegal, if its opcode is decoded by format Z (R64). -/
theorem lowBitsZero_of_formatZ {op : BitVec 8} {i : Instr}
    (hop : ∀ x : BitVec 24, decode (op ++ x) = formatZ (op ++ x) i) : LowBitsZero op := by
  intro x s hx
  have hlow : field (op ++ x) 0 24 = x := BitVec.extractLsb'_append_eq_right
  have hbits : (field (op ++ x) 0 24 == 0) = false := by simpa [hlow] using hx
  exact execWord_of_error (by rw [hop, formatZ, hbits, zeroBits_false]) s

/-- The opcode of a word put together from an opcode and operand bits. -/
theorem field_opcode (op : BitVec 8) (x : BitVec 24) : field (op ++ x) 24 8 = op :=
  BitVec.extractLsb'_append_eq_left

/-! ## NOP and CLEAR -/

/-- Settles O25. -/
theorem nopDoesNothing : Obligations.NopDoesNothing :=
  ⟨fun _ => rfl, lowBitsZero_of_formatZ (i := .nop) fun x => by simp [decode, field_opcode]⟩

/-- The report of `CLEAR`, code 0 and data 0, is what `RSP` and `LASTERR` hold at reset. -/
theorem State.clear_report (s : State) : s.clear.report 0 0 = s.clear := rfl

/-- After `CLEAR` every control register reads 0 (R43, R83). -/
theorem State.clear_readCsr (s : State) (c : Csr) : s.clear.readCsr c = 0 := by cases c <;> rfl

/-- Settles O26. -/
theorem clearResets : Obligations.ClearResets := by
  refine ⟨fun s => ⟨s.clear, ?_, s.clear_readCsr, rfl, rfl, rfl, rfl, rfl⟩,
    lowBitsZero_of_formatZ (i := .clear) fun x => by simp [decode, field_opcode]⟩
  rw [exec_clear, State.clear_report]

/-! ## WRCSR -/

/-- The numbers of the four registers the host may write (R25). -/
theorem csrNumber_writable (csr : BitVec 8) :
    (csr.toNat ≤ 0x01 → csrNumber csr = some .m ∨ csrNumber csr = some .poly) ∧
    (0x02 ≤ csr.toNat → csr.toNat ≤ 0x03 → csrNumber csr = some .t ∨ csrNumber csr = some .k) ∧
    (0x03 < csr.toNat → csrNumber csr ≠ some .m ∧ csrNumber csr ≠ some .poly ∧
      csrNumber csr ≠ some .t ∧ csrNumber csr ≠ some .k) := by
  revert csr; decide

section Wrcsr

variable {csr : BitVec 8} {v : Half} {s : State}

/-- `M` and `POLY` are locked once a field is built (R84). -/
theorem wrcsrBody_field_locked (hcsr : csr.toNat ≤ 0x01) (hc : s.cfgstate ≠ .empty) :
    wrcsrBody csr v s = .err .badSequence s := by
  obtain h | h := (csrNumber_writable csr).1 hcsr <;> simp [wrcsrBody, h, hc]

/-- `T` and `K` are locked once a code is derived (R84). -/
theorem wrcsrBody_code_locked (hlo : 0x02 ≤ csr.toNat) (hhi : csr.toNat ≤ 0x03) (hc : s.cfgstate = .code) :
    wrcsrBody csr v s = .err .badSequence s := by
  obtain h | h := (csrNumber_writable csr).2.1 hlo hhi <;> simp [wrcsrBody, h, hc]

/-- Every other number is read-only or reserved (R76, R84). -/
theorem wrcsrBody_illegal (hcsr : 0x03 < csr.toNat) : wrcsrBody csr v s = .err .illegalCommand s := by
  obtain ⟨hm, hpoly, ht, hk⟩ := (csrNumber_writable csr).2.2 hcsr
  unfold wrcsrBody
  split
  next h => exact absurd h hm
  next h => exact absurd h hpoly
  next h => exact absurd h ht
  next h => exact absurd h hk
  next => rfl

theorem exec_wrcsr_of_ok {u : State} (h : wrcsrBody csr v s = .ok 0 u) :
    exec (.wrcsr csr v) s = .next (u.report 0 0) := exec_of_body_ok h

theorem exec_wrcsr_of_err {e : Err} (h : wrcsrBody csr v s = .err e s) :
    exec (.wrcsr csr v) s = .next (s.report e.code 0) := exec_of_body_err h

end Wrcsr

/-- Settles O27. -/
theorem wrcsrWrites : Obligations.WrcsrWrites := fun _ v s =>
  have write_m (hc : s.cfgstate = .empty) : wrcsrBody 0x00 v s = .ok 0 { s with m := v } := if_neg (not_not.2 hc)
  have write_poly (hc : s.cfgstate = .empty) : wrcsrBody 0x01 v s = .ok 0 { s with poly := v } := if_neg (not_not.2 hc)
  have write_t (hc : s.cfgstate ≠ .code) : wrcsrBody 0x02 v s = .ok 0 { s with t := v } := if_neg hc
  have write_k (hc : s.cfgstate ≠ .code) : wrcsrBody 0x03 v s = .ok 0 { s with k := v } := if_neg hc
  ⟨fun hc => exec_wrcsr_of_ok (write_m hc), fun hc => exec_wrcsr_of_ok (write_poly hc),
    fun hc => exec_wrcsr_of_ok (write_t hc), fun hc => exec_wrcsr_of_ok (write_k hc),
    fun hcsr hc => exec_wrcsr_of_err (wrcsrBody_field_locked hcsr hc),
    fun hlo hhi hc => exec_wrcsr_of_err (wrcsrBody_code_locked hlo hhi hc),
    fun hcsr => exec_wrcsr_of_err (wrcsrBody_illegal hcsr)⟩

/-! ## RDCSR -/

/-- `RDCSR` of a defined register answers its value, read before `LASTERR` is rewritten (R22, R85). -/
theorem exec_rdcsr_of_some {csr : BitVec 8} {r : Csr} (h : csrNumber csr = some r) (s : State) :
    exec (.rdcsr csr) s = .next (s.report 0 (s.readCsr r)) :=
  exec_of_body_ok (by rw [commandBody, rdcsrBody, h])

/-- `RDCSR` of a reserved number is illegal (R76, R85). -/
theorem exec_rdcsr_of_none {csr : BitVec 8} (h : csrNumber csr = none) (s : State) :
    exec (.rdcsr csr) s = .next (s.report 5 0) :=
  exec_of_body_err (e := .illegalCommand) (by rw [commandBody, rdcsrBody, h])

/-- The numbers above 0x0E are reserved (R25). -/
theorem csrNumber_reserved {csr : BitVec 8} : 0x0E < csr.toNat → csrNumber csr = none := by
  revert csr; decide

/-- `CFGSTATE` as it reads (R17). -/
theorem State.readCsr_cfgstate (s : State) :
    s.readCsr .cfgstate = match s.cfgstate with | .empty => 0 | .field => 1 | .code => 2 := by
  unfold State.readCsr
  cases s.cfgstate <;> rfl

/-- `STAGE` as it reads (R18). -/
theorem State.readCsr_stage (s : State) :
    s.readCsr .stage =
      match s.stage with | .idle => 0 | .synd => 1 | .locator => 2 | .roots => 3 | .done => 4 | .failed => 5 := by
  unfold State.readCsr
  cases s.stage <;> rfl

/-- A word of format CR with any of bits 15:0 set does not decode (R66). -/
theorem decode_rdcsr_lowBits (csr : BitVec 8) {x : Half} (hx : x ≠ 0) :
    decode (0x03#8 ++ csr ++ x) = .error (.nonzeroReservedBits 0x03) := by
  have hop : field (0x03#8 ++ csr ++ x) 24 8 = 0x03#8 :=
    (extract_append_hi _ _ _ _ (by decide)).trans BitVec.extractLsb'_append_eq_left
  have hlow : field (0x03#8 ++ csr ++ x) 0 16 = x := BitVec.extractLsb'_append_eq_right
  have hbits : (field (0x03#8 ++ csr ++ x) 0 16 == 0#16) = false := by simpa [hlow] using hx
  simp [decode, hop, hbits]

/-- The register map of R25: the fifteen numbers and the registers they name. -/
def csrMap : List (BitVec 8 × Csr) :=
  [(0x00, .m), (0x01, .poly), (0x02, .t), (0x03, .k), (0x04, .cfgstate), (0x05, .n), (0x06, .ebits), (0x07, .ebytes),
    (0x08, .kbytes), (0x09, .stage), (0x0A, .flags), (0x0B, .nerr), (0x0C, .elpdeg), (0x0D, .lasterr), (0x0E, .prim)]

theorem csrNumber_of_mem_csrMap : ∀ p ∈ csrMap, csrNumber p.1 = some p.2 := by decide

/-- `RDCSR` answers the value of each register of the map. -/
theorem exec_rdcsr_of_mem {s : State} {p : BitVec 8 × Half} (h : p ∈ csrMap.map fun q => (q.1, s.readCsr q.2)) :
    exec (.rdcsr p.1) s = .next (s.report 0 p.2) := by
  obtain ⟨q, hq, rfl⟩ := List.mem_map.1 h
  exact exec_rdcsr_of_some (csrNumber_of_mem_csrMap q hq) s

/-- Settles O28: the fifteen pairs are those of the map, each register with what it reads as. -/
theorem rdcsrReads : Obligations.RdcsrReads := by
  refine fun s => ⟨fun p hp => exec_rdcsr_of_mem ?_, fun csr => ⟨fun h => exec_rdcsr_of_none (csrNumber_reserved h) s,
    fun x hx => execWord_of_error (decode_rdcsr_lowBits csr hx) s⟩⟩
  simp only [csrMap, List.map_cons, List.map_nil, State.readCsr_cfgstate, State.readCsr_stage]
  exact hp

end Sys2Proof.Machine
end

section
/-! The degree of the generator polynomial (R89): a coset is closed under doubling, so the even exponents among the 2t
are skipped, and each of the at most t odd ones adds a factor of degree at most m. -/

namespace Sys2Proof.Machine

/-! ## Cyclotomic cosets -/

/-- A coset lists at most as many exponents as its loop may collect. -/
theorem cosetLoop_length_le (fuel n i c : Nat) : (cosetLoop fuel n i c).length ≤ fuel := by
  induction fuel generalizing c with
  | zero => exact le_rfl
  | succ fuel ih =>
    rw [cosetLoop]
    split
    · simp
    · simpa using ih _

theorem mem_cosetLoop_self (fuel n i c : Nat) : c ∈ cosetLoop (fuel + 1) n i c := by
  rw [cosetLoop]
  split <;> simp

/-- If doubling leads back to `i` within the loop's bound, the double of a collected exponent is collected, or is
`i`. -/
theorem double_mem_cosetLoop {fuel n i c : Nat} (hback : 2 ^ fuel * c % n = i) :
    ∀ x ∈ cosetLoop fuel n i c, 2 * x % n = i ∨ 2 * x % n ∈ cosetLoop fuel n i c := by
  induction fuel generalizing c with
  | zero => simp [cosetLoop]
  | succ fuel ih =>
    rw [cosetLoop]
    split
    next hi => simp [hi]
    next hi =>
    have hnext : 2 ^ fuel * (2 * c % n) % n = i := by
      rw [Nat.mul_mod_mod, ← mul_assoc, ← pow_succ]
      exact hback
    have hfuel : fuel ≠ 0 := by
      rintro rfl
      exact hi (by simpa using hback)
    obtain ⟨k, rfl⟩ := Nat.exists_eq_succ_of_ne_zero hfuel
    rintro x (_ | ⟨_, hx⟩)
    · exact .inr (List.mem_cons_of_mem _ (mem_cosetLoop_self k n i _))
    · exact (ih hnext x hx).imp_right (List.mem_cons_of_mem _)

/-- m doublings modulo 2^m - 1 change nothing. -/
theorem two_pow_mul_mod_order {m i : Nat} (hi : i < 2 ^ m - 1) : 2 ^ m * i % (2 ^ m - 1) = i := by
  obtain ⟨n, hn⟩ := Nat.exists_eq_succ_of_ne_zero (Nat.two_pow_pos m).ne'
  rw [hn, Nat.succ_sub_one] at hi ⊢
  rw [Nat.succ_mul, Nat.mul_add_mod, Nat.mod_eq_of_lt hi]

/-- A set of exponents closed under doubling modulo n. -/
def DoublingClosed (n : Nat) (seen : List Nat) : Prop := ∀ x ∈ seen, 2 * x % n ∈ seen

/-- The coset of an exponent below n = 2^m - 1 is closed under doubling (R89). -/
theorem coset_doublingClosed {m i : Nat} (hm : 1 ≤ m) (hi : i < 2 ^ m - 1) :
    DoublingClosed (2 ^ m - 1) (coset m (2 ^ m - 1) i) := by
  obtain ⟨k, rfl⟩ := Nat.exists_eq_add_of_le' hm
  intro x hx
  obtain h | h := double_mem_cosetLoop (two_pow_mul_mod_order hi) x hx
  · rw [h]
    exact mem_cosetLoop_self k _ i i
  · exact h

/-! ## The loop of `genpoly` -/

/-- What holds after the exponents 1 to `r` (R89): they have all been seen, what has been seen is closed under doubling,
and the degree is at most m for each odd exponent among them. -/
structure GenInv (m n r : Nat) (acc : Nat × List Nat) : Prop where
  ne_zero : acc.1 ≠ 0
  degree_le : acc.1.log2 ≤ m * ((r + 1) / 2)
  seen : ∀ j, 1 ≤ j → j ≤ r → j ∈ acc.2
  closed : DoublingClosed n acc.2

theorem genInv_start (m n : Nat) : GenInv m n 0 (1, []) where
  ne_zero := Nat.one_ne_zero
  degree_le := by simp [Nat.log2_def]
  seen := by omega
  closed := by simp [DoublingClosed]

/-- The next exponent keeps it: an even one has been seen, being the double of an earlier one. -/
theorem GenInv.step {m r : Nat} {F : GfTables} {acc : Nat × List Nat} (h : GenInv m F.n r acc) (hm : 1 ≤ m)
    (hn : F.n = 2 ^ m - 1) (hr : r + 1 < F.n) : GenInv m F.n (r + 1) (genStep F m acc (r + 1)) := by
  have hgrow : m * ((r + 1) / 2) ≤ m * ((r + 1 + 1) / 2) := Nat.mul_le_mul_left m (by omega)
  unfold genStep
  split
  next hseen =>
    refine { h with degree_le := h.degree_le.trans hgrow, seen := fun j h1 hj => ?_ }
    obtain rfl | hlt := hj.eq_or_lt
    · simpa using hseen
    · exact h.seen j h1 (by omega)
  next hnew =>
    have hodd : (r + 1 + 1) / 2 = (r + 1) / 2 + 1 := by
      by_contra heven
      have hdouble := h.closed _ (h.seen ((r + 1) / 2) (by omega) (by omega))
      rw [show 2 * ((r + 1) / 2) = r + 1 by omega, Nat.mod_eq_of_lt hr] at hdouble
      exact hnew (by simpa using hdouble)
    have hclosed : DoublingClosed F.n (coset m F.n (r + 1)) := hn ▸ coset_doublingClosed hm (hn ▸ hr)
    obtain ⟨hfactor, hdeg⟩ := gf2Poly_minPoly F (coset m F.n (r + 1))
    obtain ⟨hne, hlog⟩ := clmul_log2 h.ne_zero hfactor
    refine ⟨hne, ?_, fun j h1 hj => ?_, fun x hx => ?_⟩
    · rw [hlog, hdeg, hodd, Nat.mul_succ]
      exact Nat.add_le_add h.degree_le (cosetLoop_length_le m F.n (r + 1) (r + 1))
    · obtain rfl | hlt := hj.eq_or_lt
      · obtain ⟨k, rfl⟩ := Nat.exists_eq_add_of_le' hm
        exact List.mem_append_right _ (mem_cosetLoop_self k _ _ _)
      · exact List.mem_append_left _ (h.seen j h1 (by omega))
    · obtain hx | hx := List.mem_append.1 hx
      · exact List.mem_append_left _ (h.closed x hx)
      · exact List.mem_append_right _ (hclosed x hx)

/-- It holds after any number of exponents below n. -/
theorem genInv_fold {m : Nat} {F : GfTables} (hm : 1 ≤ m) (hn : F.n = 2 ^ m - 1) {r : Nat} (hr : r < F.n) :
    GenInv m F.n r ((List.range' Config.root0 r).foldl (genStep F m) (1, [])) := by
  induction r with
  | zero => exact genInv_start m F.n
  | succ r ih =>
    rw [List.range'_concat, List.foldl_append, List.foldl_cons, List.foldl_nil,
      show Config.root0 + 1 * r = r + 1 by simp [Config.root0, Nat.add_comm]]
    exact (ih (by omega)).step hm hn hr

/-- Settles O33: among the exponents 1 to 2t there are t odd ones. -/
theorem generatorDegreeBounds : Obligations.GeneratorDegreeBounds := by
  intro m P F t hF ht hmt
  have hm : 1 ≤ m := le_trans (by decide) hF.m_lo
  obtain ⟨hne, hpos⟩ := genPoly_degree_pos F hm ht
  have h2t : 2 * t < F.n := (Nat.mul_le_mul_right t hF.m_lo).trans_lt hmt
  have hdeg := (genInv_fold hm hF.n_eq h2t).degree_le
  rw [show (2 * t + 1) / 2 = t by omega] at hdeg
  exact ⟨hne, hpos, hdeg⟩

/-! ## The polynomials that R89 names -/

/-- The tables of the field of order 4 with P = 0x13 (R27), as `GFBUILD` makes them. -/
def tables4 : GfTables where
  n := 15
  antilog := #[1, 2, 4, 8, 3, 6, 12, 11, 5, 10, 7, 14, 15, 13, 9, 1]
  log := #[15, 0, 1, 4, 2, 8, 5, 10, 3, 14, 9, 7, 6, 13, 11, 12]

theorem buildField_tables4 : buildField 4 0x13 = some (tables4.antilog, tables4.log) := by decide +kernel

/-- Settles O32. -/
theorem generatorExamples : Obligations.GeneratorExamples :=
  ⟨tables4.antilog, tables4.log, buildField_tables4, by decide +kernel, by decide +kernel, by decide +kernel⟩

end Sys2Proof.Machine
end

section
/-! GFBUILD and DERIVE (R86 to R91): when each commits, what it commits, and when it raises. -/

namespace Sys2Proof.Machine

/-! ## When the loop of R86 finishes -/

/-- The loop finishes if it meets no power of α that is 1 after the first. -/
theorem buildLoop_finishes {m P : Nat} {steps i x : Nat} {A L : Array Half} (hx : x = alphaPow m P i)
    (hne : ∀ j, 0 < j → i ≤ j → j < i + steps → alphaPow m P j ≠ 1) :
    ∃ y A' L', buildLoop m P steps i x A L = some (y, A', L') := by
  induction steps generalizing i x A L with
  | zero => exact ⟨x, A, L, rfl⟩
  | succ steps ih =>
    have hgo : ¬(0 < i ∧ x = 1) := fun ⟨h0, h1⟩ => hne i h0 le_rfl (by omega) (hx ▸ h1)
    rw [buildLoop, if_neg hgo]
    exact ih (by rw [hx, alphaPow_succ]) fun j h0 hij hj => hne j h0 (by omega) (by omega)

/-- The tables are built exactly when P passes the test of R86. -/
theorem exists_buildField_iff_primitive {m P : Nat} : (∃ A L, buildField m P = some (A, L)) ↔ Primitive m P := by
  refine ⟨fun ⟨A, L, h⟩ => primitive_of_buildField h, fun h => ?_⟩
  obtain ⟨y, A, L, hl⟩ := buildLoop_finishes (P := P) (steps := 2 ^ m - 1)
    (A := Array.replicate (2 ^ m) 0) (L := Array.replicate (2 ^ m) 0) (alphaPow_zero m P).symm
    fun j h0 _ hj => h.not_before j h0 (by omega)
  have hy : y = 1 := by
    rw [(buildLoop_powers (alphaPow_zero m P).symm hl).1, zero_add]
    exact h.at_n
  unfold buildField
  rw [hl]
  exact ⟨_, _, if_neg (not_not.2 hy)⟩

theorem buildField_eq_none_iff {m P : Nat} : buildField m P = none ↔ ¬Primitive m P := by
  rw [← exists_buildField_iff_primitive, Option.eq_none_iff_forall_ne_some, Prod.forall]
  simp

/-! ## GFBUILD -/

/-- The conditions under which `GFBUILD` builds a field in `EMPTY` (R86, R88). -/
structure Buildable (m P : Nat) : Prop where
  m_lo : 2 ≤ m
  m_hi : m ≤ 15
  degree : P >>> m = 1
  primitive : Primitive m P

section Gfbuild

variable {s : State}

theorem gfbuildBody_of_not_empty (hc : s.cfgstate ≠ .empty) : gfbuildBody s = .err .badSequence s := if_pos hc

/-- A buildable field is built and committed (R88). -/
theorem gfbuildBody_of_buildable (hc : s.cfgstate = .empty) (h : Buildable s.m.toNat s.polyInUse) :
    ∃ A L, buildField s.m.toNat s.polyInUse = some (A, L) ∧
      gfbuildBody s = .ok (BitVec.ofNat 16 (2 ^ s.m.toNat - 1)) (s.commitField s.polyInUse A L) := by
  obtain ⟨A, L, hb⟩ := exists_buildField_iff_primitive.2 h.primitive
  refine ⟨A, L, hb, ?_⟩
  have hm : ¬(s.m.toNat < Config.mMin ∨ Config.mMax < s.m.toNat) :=
    not_or.2 ⟨not_lt.2 h.m_lo, not_lt.2 h.m_hi⟩
  rw [gfbuildBody, if_neg (not_not.2 hc), if_neg hm, if_neg (not_not.2 h.degree), hb]

/-- Anything else raises `InvalidFieldOrder` (R88). -/
theorem gfbuildBody_of_not_buildable (hc : s.cfgstate = .empty) (h : ¬Buildable s.m.toNat s.polyInUse) :
    gfbuildBody s = .err .invalidFieldOrder s := by
  rw [gfbuildBody, if_neg (not_not.2 hc)]
  split
  · rfl
  next hm =>
  split
  · rfl
  next hP =>
  rw [not_or, not_lt, not_lt] at hm
  have hb : buildField s.m.toNat s.polyInUse = none :=
    buildField_eq_none_iff.2 fun hprim => h ⟨hm.1, hm.2, not_not.1 hP, hprim⟩
  rw [hb]

end Gfbuild

/-- A polynomial of degree at most 15 fits `PRIM`. -/
theorem Buildable.prim_toNat {m P : Nat} (h : Buildable m P) : (BitVec.ofNat 16 P).toNat = P := by
  have hpow : 2 ^ (m + 1) ≤ 2 ^ 16 := Nat.pow_le_pow_right (by decide) (Nat.succ_le_succ h.m_hi)
  rw [BitVec.toNat_ofNat]
  exact Nat.mod_eq_of_lt ((lt_two_pow_of_degree h.degree).trans_le hpow)

/-- Settles O29: what is committed is a field (`State.commitField_fieldOk`), and what is not buildable is refused. -/
theorem gfbuildBuildsTheField : Obligations.GfbuildBuildsTheField := by
  intro s P hP
  have hP : P = s.polyInUse := hP
  subst hP
  refine ⟨fun hc hlo hhi hdeg hprim => ?_, fun hc hbad => ?_, fun hc => ?_⟩
  · have h : Buildable s.m.toNat s.polyInUse := ⟨hlo, hhi, hdeg, hprim⟩
    obtain ⟨A, L, hb, hbody⟩ := gfbuildBody_of_buildable hc h
    have htables := (State.commitField_fieldOk hlo hhi hdeg hb).tables
    rw [State.commitField_prim, h.prim_toNat] at htables
    exact ⟨_, exec_of_body_ok (i := .gfbuild) hbody, rfl, h.prim_toNat, htables⟩
  · have h : ¬Buildable s.m.toNat s.polyInUse := by
      rintro ⟨hlo, hhi, hdeg, hprim⟩
      obtain hlt | hgt | hne | hnot := hbad
      · exact absurd hlt (not_lt.2 hlo)
      · exact absurd hgt (not_lt.2 hhi)
      · exact hne hdeg
      · exact hnot hprim
    exact exec_of_body_err (i := .gfbuild) (gfbuildBody_of_not_buildable hc h)
  · exact exec_of_body_err (i := .gfbuild) (gfbuildBody_of_not_empty hc)

/-! ## DERIVE -/

section Derive

variable {s : State}

theorem deriveBody_of_not_field (hc : s.cfgstate ≠ .field) : deriveBody s = .err .badSequence s := if_pos hc

/-- The capacity tests of R90 passed: the code is committed (R91). -/
theorem deriveBody_of_capacity (hc : s.cfgstate = .field) (ht : 1 ≤ s.t.toNat)
    (hmt : s.m.toNat * s.t.toNat < s.n.toNat) (hk : 1 ≤ s.k.toNat)
    (hfit : s.k.toNat + (genPoly s.tables s.m.toNat s.t.toNat).log2 ≤ s.n.toNat) :
    deriveBody s = .ok (BitVec.ofNat 16 (genPoly s.tables s.m.toNat s.t.toNat).log2)
      (s.commitCode (genPoly s.tables s.m.toNat s.t.toNat)) := by
  rw [deriveBody, if_neg (not_not.2 hc), if_neg (by omega)]
  exact if_neg (by omega)

/-- One of them failed: `CapacityExceeded` (R90). -/
theorem deriveBody_of_no_capacity (hc : s.cfgstate = .field)
    (hbad : s.t.toNat < 1 ∨ s.n.toNat ≤ s.m.toNat * s.t.toNat ∨ s.k.toNat < 1 ∨
      s.n.toNat < s.k.toNat + (genPoly s.tables s.m.toNat s.t.toNat).log2) :
    deriveBody s = .err .capacityExceeded s := by
  rw [deriveBody, if_neg (not_not.2 hc)]
  split
  · rfl
  next ht => exact if_pos (by omega)

end Derive

/-- The entries of `MOD8` (R30, R116). -/
theorem mod8Table_getD (g E : Nat) {b : Nat} (hb : b < 256) : (mod8Table g E).getD b 0 = pmod (b <<< E) g := by
  simp [mod8Table, Array.getD_eq_getD_getElem?, hb]

/-- Settles O31. -/
theorem deriveCommitsTheCode : Obligations.DeriveCommitsTheCode := by
  rintro s g rfl
  refine ⟨fun hc ht hmt hk hfit => ?_, fun hc hbad => ?_, fun hc => ?_⟩
  · have hbody := deriveBody_of_capacity hc ht hmt hk hfit
    exact ⟨_, exec_of_body_ok (i := .derive) hbody, rfl, fun b hb => mod8Table_getD _ _ hb,
      fun a => ⟨rfl, rfl, rfl⟩, rfl, rfl, rfl⟩
  · exact exec_of_body_err (i := .derive) (deriveBody_of_no_capacity hc hbad)
  · exact exec_of_body_err (i := .derive) (deriveBody_of_not_field hc)

end Sys2Proof.Machine
end

section
/-! The default polynomials (R87): the order of α is checked at the powers n and n/p, p the primes that divide n, and
those powers are computed by squaring. -/

namespace Sys2Proof.Machine

/-! ## The powers of α as iterates of one linear map -/

theorem alphaPow_eq_iterate (m P i : Nat) : alphaPow m P i = (timesAlpha m P)^[i] 1 := by
  induction i with
  | zero => rfl
  | succ i ih => rw [alphaPow_succ, ih, Function.iterate_succ_apply']

/-- Multiplication by α is linear over GF(2). -/
theorem timesAlpha_xor (m P x y : Nat) : timesAlpha m P (x ^^^ y) = timesAlpha m P x ^^^ timesAlpha m P y := by
  have hbit : ((x ^^^ y) <<< 1).testBit m = ((x <<< 1).testBit m ^^ (y <<< 1).testBit m) := by
    rw [Nat.shiftLeft_xor_distrib, Nat.testBit_xor]
  unfold timesAlpha
  rw [hbit, Nat.shiftLeft_xor_distrib]
  cases (x <<< 1).testBit m <;> cases (y <<< 1).testBit m <;>
    simp [Nat.xor_comm, Nat.xor_left_comm]

theorem timesAlpha_iterate_xor (m P j x y : Nat) :
    (timesAlpha m P)^[j] (x ^^^ y) = (timesAlpha m P)^[j] x ^^^ (timesAlpha m P)^[j] y := by
  induction j generalizing x y with
  | zero => rfl
  | succ j ih => rw [Function.iterate_succ_apply, timesAlpha_xor, ih, Function.iterate_succ_apply,
      Function.iterate_succ_apply]

theorem timesAlpha_iterate_zero (m P j : Nat) : (timesAlpha m P)^[j] 0 = 0 :=
  Function.iterate_fixed (by simp [timesAlpha]) j

/-- Below bit m - 1 nothing is reduced. -/
theorem timesAlpha_of_lt {m x : Nat} (P : Nat) (h : 2 * x < 2 ^ m) : timesAlpha m P x = 2 * x := by
  have hshift : x <<< 1 = 2 * x := by rw [Nat.shiftLeft_eq]; omega
  rw [timesAlpha, hshift, if_neg (by simp [Nat.testBit_lt_two_pow h])]

/-! ## Products of powers -/

/-- The product of `a` and an element `x` of at most `bits` bits: the sum of `a · α^b` over the bits b of `x`. -/
def mulElem (m P bits a x : Nat) : Nat :=
  match bits with
  | 0 => 0
  | bits + 1 => (if x % 2 = 1 then a else 0) ^^^ mulElem m P bits (timesAlpha m P a) (x / 2)

/-- A number is the sum over GF(2) of its lowest bit and the rest. -/
theorem mod_two_xor_double (x : Nat) : x % 2 ^^^ 2 * (x / 2) = x := by
  refine Nat.eq_of_testBit_eq fun k => ?_
  cases k with
  | zero => simp
  | succ k => simp [Nat.testBit_succ, Nat.xor_div_two]

/-- Multiplying j times by α is multiplying by α^j. -/
theorem timesAlpha_iterate_eq_mulElem {m P bits : Nat} (hbits : bits ≤ m) (j : Nat) {x : Nat} (hx : x < 2 ^ bits) :
    (timesAlpha m P)^[j] x = mulElem m P bits ((timesAlpha m P)^[j] 1) x := by
  induction bits generalizing j x with
  | zero =>
    obtain rfl : x = 0 := by simpa using hx
    exact timesAlpha_iterate_zero m P j
  | succ bits ih =>
    have hhalf : x / 2 < 2 ^ bits := by rw [pow_succ] at hx; omega
    have hpow : 2 ^ (bits + 1) ≤ 2 ^ m := Nat.pow_le_pow_right (by decide) hbits
    have hsplit : x = x % 2 ^^^ timesAlpha m P (x / 2) := by
      rw [timesAlpha_of_lt P (by omega), mod_two_xor_double]
    have hlow : (timesAlpha m P)^[j] (x % 2) = if x % 2 = 1 then (timesAlpha m P)^[j] 1 else 0 := by
      obtain h | h := Nat.mod_two_eq_zero_or_one x
      · rw [h, timesAlpha_iterate_zero]; rfl
      · rw [h]; rfl
    calc (timesAlpha m P)^[j] x
        = (timesAlpha m P)^[j] (x % 2) ^^^ (timesAlpha m P)^[j + 1] (x / 2) := by
          rw [Function.iterate_succ_apply, ← timesAlpha_iterate_xor, ← hsplit]
      _ = mulElem m P (bits + 1) ((timesAlpha m P)^[j] 1) x := by
          rw [hlow, ih (by omega) (j + 1) hhalf, Function.iterate_succ_apply', mulElem]

/-- α^(i+j) is the product of α^i and α^j. -/
theorem alphaPow_add {m P : Nat} (hP : P >>> m = 1) (hm : 1 ≤ m) (i j : Nat) :
    alphaPow m P (i + j) = mulElem m P m (alphaPow m P i) (alphaPow m P j) := by
  rw [alphaPow_eq_iterate m P (i + j), Function.iterate_add_apply, ← alphaPow_eq_iterate m P j,
    timesAlpha_iterate_eq_mulElem le_rfl i (alphaPow_lt hP hm j), ← alphaPow_eq_iterate]

/-- α^e by squaring, for an exponent of at most `bits` bits. -/
def fastPow (m P bits e : Nat) : Nat :=
  match bits with
  | 0 => 1
  | bits + 1 =>
    let half := fastPow m P bits (e / 2)
    let square := mulElem m P m half half
    if e % 2 = 1 then timesAlpha m P square else square

theorem fastPow_eq {m P : Nat} (hP : P >>> m = 1) (hm : 1 ≤ m) {bits e : Nat} (he : e < 2 ^ bits) :
    fastPow m P bits e = alphaPow m P e := by
  induction bits generalizing e with
  | zero =>
    obtain rfl : e = 0 := by simpa using he
    rfl
  | succ bits ih =>
    have hsquare : mulElem m P m (alphaPow m P (e / 2)) (alphaPow m P (e / 2)) = alphaPow m P (2 * (e / 2)) := by
      rw [two_mul, alphaPow_add hP hm]
    rw [fastPow, ih (by rw [pow_succ] at he; omega), hsquare]
    split
    · rw [← alphaPow_succ]; congr 1; omega
    · congr 1; omega

/-! ## Primitive polynomials by the prime factors of the order -/

/-- α has order n if α^n = 1 and α^(n/p) is not 1 for any prime p that divides n. -/
theorem primitive_of_primeFactors {m P : Nat} (hn : alphaPow m P (2 ^ m - 1) = 1)
    (hdiv : ∀ p, p.Prime → p ∣ 2 ^ m - 1 → alphaPow m P ((2 ^ m - 1) / p) ≠ 1) : Primitive m P := by
  refine ⟨fun i h0 hi h1 => ?_, hn⟩
  simp only [alphaPow_eq_iterate] at hn hdiv h1
  obtain ⟨d, hd⟩ : ∃ d, d = Function.minimalPeriod (timesAlpha m P) 1 := ⟨_, rfl⟩
  have hdn : d ∣ 2 ^ m - 1 := hd ▸ Function.IsPeriodicPt.minimalPeriod_dvd hn
  have hdi : d ≤ i := hd ▸ Function.IsPeriodicPt.minimalPeriod_le h0 h1
  obtain ⟨c, hc⟩ := hdn
  have hc1 : c ≠ 1 := by rintro rfl; omega
  obtain ⟨p, hp, q, rfl⟩ := Nat.exists_prime_and_dvd hc1
  have hq : (2 ^ m - 1) / p = d * q := by
    rw [hc, show d * (p * q) = p * (d * q) by ring]
    exact Nat.mul_div_cancel_left _ hp.pos
  refine hdiv p hp ⟨d * q, by rw [hc]; ring⟩ ?_
  rw [hq, hd]
  exact (Function.isPeriodicPt_minimalPeriod (timesAlpha m P) 1).mul_const q

/-- The prime factors of 2^m - 1, for the orders of R8. -/
def orderFactors (m : Nat) : List Nat :=
  match m with
  | 2 => [3]
  | 3 => [7]
  | 4 => [3, 5]
  | 5 => [31]
  | 6 => [3, 3, 7]
  | 7 => [127]
  | 8 => [3, 5, 17]
  | 9 => [7, 73]
  | 10 => [3, 11, 31]
  | 11 => [23, 89]
  | 12 => [3, 3, 5, 7, 13]
  | 13 => [8191]
  | 14 => [3, 43, 127]
  | 15 => [7, 31, 151]
  | _ => []

theorem orderFactors_prime (m : Nat) : ∀ p ∈ orderFactors m, p.Prime := by
  unfold orderFactors
  split <;> norm_num

/-- What is computed for a default polynomial: its degree, the factors of n, and the order of α. -/
def DefPolyCheck (m : Nat) : Prop :=
  Config.defPoly m >>> m = 1 ∧ (orderFactors m).prod = 2 ^ m - 1 ∧
    fastPow m (Config.defPoly m) m (2 ^ m - 1) = 1 ∧
    ∀ p ∈ orderFactors m, fastPow m (Config.defPoly m) m ((2 ^ m - 1) / p) ≠ 1

theorem defPolyCheck_all : ∀ m ∈ List.range' 2 14, DefPolyCheck m := by
  unfold DefPolyCheck
  decide +kernel

/-- A polynomial that passes the check is primitive. -/
theorem DefPolyCheck.primitive {m : Nat} (h : DefPolyCheck m) (hm : 1 ≤ m) : Primitive m (Config.defPoly m) := by
  obtain ⟨hdeg, hprod, hone, hne⟩ := h
  have hpos := Nat.two_pow_pos m
  refine primitive_of_primeFactors (by rwa [← fastPow_eq hdeg hm (bits := m) (by omega)]) fun p hp hdvd => ?_
  have hmem : p ∈ orderFactors m := mem_list_primes_of_dvd_prod hp.prime (fun q hq => (orderFactors_prime m q hq).prime)
    (hprod ▸ hdvd)
  have hle : (2 ^ m - 1) / p ≤ 2 ^ m - 1 := Nat.div_le_self _ _
  rw [← fastPow_eq hdeg hm (bits := m) (by omega)]
  exact hne p hmem

/-- Settles O30. -/
theorem defaultPolynomialsArePrimitive : Obligations.DefaultPolynomialsArePrimitive := by
  refine ⟨rfl, fun m hlo hhi => ?_⟩
  have h := defPolyCheck_all m (List.mem_range'_1.2 ⟨hlo, by omega⟩)
  have ⟨hdeg, _⟩ := h
  exact ⟨hdeg, h.primitive (by omega)⟩

end Sys2Proof.Machine
end

section
/-! Remainders modulo a polynomial P of degree m (R11): the remainder of x is the value of x at α, a root of P, so it is
linear in x, and the carry-less product with a power of α is a repeated multiplication by α. -/

namespace Sys2Proof.Machine

/-! ## The value of a polynomial at α -/

/-- The value of the polynomial `x` at α in GF(2)[x]/(P), by Horner's rule from the highest bit. -/
def atAlpha (m P x : Nat) : Nat :=
  if x = 0 then 0 else x % 2 ^^^ timesAlpha m P (atAlpha m P (x / 2))
termination_by x
decreasing_by omega

@[simp] theorem timesAlpha_zero (m P : Nat) : timesAlpha m P 0 = 0 := by simp [timesAlpha]

@[simp] theorem atAlpha_zero (m P : Nat) : atAlpha m P 0 = 0 := by rw [atAlpha, if_pos rfl]

theorem atAlpha_eq (m P x : Nat) : atAlpha m P x = x % 2 ^^^ timesAlpha m P (atAlpha m P (x / 2)) := by
  obtain rfl | hx := eq_or_ne x 0
  · simp
  · rw [atAlpha, if_neg hx]

/-- The value at α is linear over GF(2). -/
theorem atAlpha_xor (m P x y : Nat) : atAlpha m P (x ^^^ y) = atAlpha m P x ^^^ atAlpha m P y := by
  induction x using Nat.strong_induction_on generalizing y with
  | h x ih =>
    obtain rfl | hx := eq_or_ne x 0
    · simp
    have hmod : (x ^^^ y) % 2 = x % 2 ^^^ y % 2 := by simpa using Nat.xor_mod_two_pow (a := x) (b := y) (n := 1)
    rw [atAlpha_eq m P (x ^^^ y), hmod, Nat.xor_div_two, ih (x / 2) (by omega), timesAlpha_xor, atAlpha_eq m P x,
      atAlpha_eq m P y]
    ac_rfl

/-- Multiplied by x^k, a polynomial has its value multiplied by α^k. -/
theorem atAlpha_shiftLeft (m P x k : Nat) : atAlpha m P (x <<< k) = (timesAlpha m P)^[k] (atAlpha m P x) := by
  induction k with
  | zero => rfl
  | succ k ih =>
    have hdouble : x <<< (k + 1) = 2 * (x <<< k) := by rw [Nat.shiftLeft_succ]
    rw [hdouble, atAlpha_eq, Function.iterate_succ_apply', ← ih]
    simp

/-- An element is its own value. -/
theorem atAlpha_of_lt {m x : Nat} (P : Nat) (hx : x < 2 ^ m) : atAlpha m P x = x := by
  induction x using Nat.strong_induction_on with
  | h x ih =>
    obtain rfl | h0 := eq_or_ne x 0
    · simp
    rw [atAlpha_eq, ih (x / 2) (by omega) (by omega), timesAlpha_of_lt P (by omega), mod_two_xor_double]

/-- α is a root of P. -/
theorem atAlpha_self {m P : Nat} (hP : P >>> m = 1) (hm : 1 ≤ m) : atAlpha m P P = 0 := by
  have hhalf : P / 2 < 2 ^ m := by have := lt_two_pow_of_degree hP; rw [pow_succ] at this; omega
  have htop : (2 * (P / 2)).testBit m = true := by
    obtain ⟨k, rfl⟩ := Nat.exists_eq_add_of_le' hm
    have hbit : P.testBit (k + 1) = true := by rw [Nat.testBit, hP]; rfl
    simpa [Nat.testBit_succ] using hbit
  have hreduced : timesAlpha m P (P / 2) = 2 * (P / 2) ^^^ P := by
    rw [timesAlpha, show (P / 2) <<< 1 = 2 * (P / 2) by rw [Nat.shiftLeft_eq]; omega, if_pos htop]
  rw [atAlpha_eq, atAlpha_of_lt P hhalf, hreduced, ← Nat.xor_assoc, mod_two_xor_double, Nat.xor_self]

/-! ## The remainder is that value -/

/-- Polynomials of equal degree have a sum of lower degree. -/
theorem xor_lt_of_log2_eq {a b d : Nat} (ha : a ≠ 0) (hb : b ≠ 0) (had : a.log2 = d) (hbd : b.log2 = d) :
    a ^^^ b < 2 ^ d := by
  refine Nat.lt_pow_two_of_testBit _ fun j hj => ?_
  rw [Nat.testBit_xor]
  obtain rfl | hj := hj.eq_or_lt
  · have hatop := Nat.testBit_log2 ha
    have hbtop := Nat.testBit_log2 hb
    rw [had] at hatop
    rw [hbd] at hbtop
    rw [hatop, hbtop]; rfl
  · rw [Nat.testBit_lt_two_pow ((Nat.log2_lt ha).1 (had ▸ hj)), Nat.testBit_lt_two_pow ((Nat.log2_lt hb).1 (hbd ▸ hj))]
    rfl

/-- P times x^k has degree m + k. -/
theorem shiftLeft_log2_of_degree {m P : Nat} (hP : P >>> m = 1) (k : Nat) :
    P <<< k ≠ 0 ∧ (P <<< k).log2 = m + k := by
  rw [Nat.shiftLeft_eq]
  refine log2_eq_of_bounds ?_ ?_
  · rw [pow_add]
    exact Nat.mul_le_mul_right _ (two_pow_le_of_degree hP)
  · rw [Nat.add_right_comm, pow_add]
    exact Nat.mul_lt_mul_of_pos_right (lt_two_pow_of_degree hP) (Nat.two_pow_pos k)

/-- Subtracting a multiple of P does not change the value at α. -/
theorem atAlpha_pmodLoop {m P : Nat} (hP : P >>> m = 1) (hm : 1 ≤ m) (fuel a : Nat) :
    atAlpha m P (pmodLoop fuel a P) = atAlpha m P a := by
  induction fuel generalizing a with
  | zero => rfl
  | succ fuel ih =>
    rw [pmodLoop]
    split
    · rw [ih, atAlpha_xor, atAlpha_shiftLeft, atAlpha_self hP hm, timesAlpha_iterate_zero, Nat.xor_zero]
    · rfl

/-- Each subtraction lowers the degree, down to below m. -/
theorem pmodLoop_lt {m P : Nat} (hP : P >>> m = 1) {fuel a : Nat} (ha : a < 2 ^ (m + fuel)) :
    pmodLoop fuel a P < 2 ^ m := by
  have hPm : P.log2 = m := (log2_eq_of_bounds (two_pow_le_of_degree hP) (lt_two_pow_of_degree hP)).2
  induction fuel generalizing a with
  | zero => exact ha
  | succ fuel ih =>
    rw [pmodLoop, hPm]
    split
    next h =>
      obtain ⟨ha0, hdeg⟩ := h
      obtain ⟨hne, hlog⟩ := shiftLeft_log2_of_degree hP (a.log2 - m)
      rw [Nat.add_sub_cancel' hdeg] at hlog
      have hle : a.log2 ≤ m + fuel := Nat.le_of_lt_succ ((Nat.log2_lt ha0).2 ha)
      exact ih ((xor_lt_of_log2_eq ha0 hne rfl hlog).trans_le (Nat.pow_le_pow_right (by decide) hle))
    next h =>
      obtain rfl | ha0 := eq_or_ne a 0
      · exact Nat.two_pow_pos m
      · exact (Nat.log2_lt ha0).1 (by omega)

/-- The remainder modulo P has degree below m (R11). -/
theorem pmod_lt {m P : Nat} (hP : P >>> m = 1) (a : Nat) : pmod a P < 2 ^ m :=
  pmodLoop_lt hP (Nat.lt_log2_self.trans_le (Nat.pow_le_pow_right (by decide) (by omega)))

/-- The remainder modulo P is the value at α (R11). -/
theorem pmod_eq_atAlpha {m P : Nat} (hP : P >>> m = 1) (hm : 1 ≤ m) (a : Nat) : pmod a P = atAlpha m P a := by
  rw [← atAlpha_of_lt P (pmod_lt hP a)]
  exact atAlpha_pmodLoop hP hm _ a

/-! ## Products with a power of α -/

/-- The bits of `b` that the running sum of `1 · b` has gone through. -/
theorem clmulPart_one_testBit (b k i : Nat) : (clmulPart 1 b k).testBit i = (decide (i < k) && b.testBit i) := by
  induction k with
  | zero => simp [clmulPart]
  | succ k ih =>
    have hone : (1 <<< k).testBit i = decide (k = i) := by rw [Nat.one_shiftLeft, Nat.testBit_two_pow]
    have hstep : (clmulPart 1 b (k + 1)).testBit i =
        ((clmulPart 1 b k).testBit i ^^ (b.testBit k && decide (k = i))) := by
      rw [clmulPart_succ]
      split <;> simp [*]
    rw [hstep, ih]
    obtain hlt | rfl | hgt := lt_trichotomy i k
    · simp [hlt, Nat.lt_succ_of_lt hlt, hlt.ne']
    · simp
    · simp [hgt.not_gt, hgt.ne, show ¬i < k + 1 by omega]

/-- 1 is the identity of the carry-less product. -/
theorem clmul_one_left (b : Nat) : clmul 1 b = b := by
  refine Nat.eq_of_testBit_eq fun i => ?_
  rw [clmul_eq, clmulPart_one_testBit]
  obtain hlt | hge := lt_or_ge i (b.log2 + 1)
  · simp [hlt]
  · have hb : b < 2 ^ i := Nat.lt_log2_self.trans_le (Nat.pow_le_pow_right (by decide) hge)
    simp [Nat.testBit_lt_two_pow hb]

/-- A factor whose value is α^j multiplies values by α^j: multiplications by α commute. -/
theorem atAlpha_clmulPart {m P a j : Nat} (hm : 1 ≤ m) (ha : atAlpha m P a = alphaPow m P j) (b k : Nat) :
    atAlpha m P (clmulPart a b k) = (timesAlpha m P)^[j] (atAlpha m P (clmulPart 1 b k)) := by
  have hterm (i : Nat) : atAlpha m P (a <<< i) = (timesAlpha m P)^[j] (atAlpha m P (1 <<< i)) := by
    rw [atAlpha_shiftLeft, atAlpha_shiftLeft, ha, atAlpha_of_lt P (Nat.one_lt_two_pow (by omega)), alphaPow_eq_iterate,
      ← Function.iterate_add_apply, ← Function.iterate_add_apply, Nat.add_comm]
  induction k with
  | zero => simp [clmulPart, timesAlpha_iterate_zero]
  | succ k ih =>
    rw [clmulPart_succ, clmulPart_succ]
    split
    · rw [atAlpha_xor, atAlpha_xor, timesAlpha_iterate_xor, ih, hterm]
    · exact ih

/-- The product of α^j and an element `b`, reduced modulo P, is `b` multiplied j times by α. -/
theorem pmod_clmul_alphaPow {m P : Nat} (hP : P >>> m = 1) (hm : 1 ≤ m) (j : Nat) {b : Nat} (hb : b < 2 ^ m) :
    pmod (clmul (alphaPow m P j) b) P = (timesAlpha m P)^[j] b := by
  rw [pmod_eq_atAlpha hP hm, clmul_eq, atAlpha_clmulPart hm (atAlpha_of_lt P (alphaPow_lt hP hm j)), ← clmul_eq,
    clmul_one_left, atAlpha_of_lt P hb]

/-- A product with 0 is 0. -/
theorem pmod_clmul_zero_left (b P : Nat) : pmod (clmul 0 b) P = 0 := by
  have hzero : ∀ k, clmulPart 0 b k = 0 := by
    intro k
    induction k with
    | zero => rfl
    | succ k ih => rw [clmulPart_succ, ih]; simp
  rw [clmul_eq, hzero]
  simp [pmod, pmodLoop]

end Sys2Proof.Machine
end

section
/-! Multiplication in a built field (R96) and the field laws (R98): the powers of α have period n, a product adds
exponents modulo n, and a product with a fixed factor is linear in the other. -/

namespace Sys2Proof.Machine

section BuiltField

variable {m P : Nat} {F : GfTables}

/-! ## Logarithms and powers -/

theorem TablesOk.m_pos (h : TablesOk m P F) : 1 ≤ m := (by decide : 1 ≤ 2).trans h.m_lo

theorem TablesOk.lt_two_pow (h : TablesOk m P F) {a : Half} (ha : F.elem a) : a.toNat < 2 ^ m := by
  have hn := h.n_eq
  have hpos := Nat.two_pow_pos m
  have ha : a.toNat ≤ F.n := ha
  omega

theorem one_le_toNat {a : Half} (ha0 : a ≠ 0) : 1 ≤ a.toNat :=
  Nat.one_le_iff_ne_zero.2 fun h => ha0 (BitVec.eq_of_toNat_eq h)

/-- A nonzero element is α to its logarithm (R28 (a)). -/
theorem TablesOk.alphaPow_logAt (h : TablesOk m P F) {x : Nat} (h1 : 1 ≤ x) (hx : x ≤ F.n) :
    alphaPow m P (F.logAt x).toNat = x := by
  rw [← h.antilog_eq _ (h.log_lt x h1 hx), h.antilog_log x h1 hx]

/-- P has a constant term: the odd element 3 is a power of α other than α^0. -/
theorem TablesOk.odd (h : TablesOk m P F) : P.testBit 0 = true := by
  have h3 : 3 ≤ F.n := h.n_eq ▸ three_le_order h.m_lo
  have hpow := h.alphaPow_logAt (by decide : 1 ≤ 3) h3
  cases he : (F.logAt 3).toNat with
  | zero => rw [he] at hpow; rw [alphaPow_zero] at hpow; exact absurd hpow (by decide)
  | succ e =>
    have hbit := timesAlpha_testBit_zero m P (alphaPow m P e)
    rw [← alphaPow_succ, ← he, hpow] at hbit
    exact (Bool.and_eq_true_iff.1 hbit.symm).2

/-- Below n the power α^0 alone is 1 (R28 (b)). -/
theorem TablesOk.eq_zero_of_alphaPow_eq_one (h : TablesOk m P F) {e : Nat} (he : e < F.n) (h1 : alphaPow m P e = 1) :
    e = 0 := by
  have hlog := h.log_antilog e he
  have hlog0 := h.log_antilog 0 h.n_pos
  rw [h.antilog_eq e he, h1] at hlog
  rw [h.antilog_eq 0 h.n_pos, alphaPow_zero] at hlog0
  exact hlog.symm.trans hlog0

/-- The powers of α come back to 1 at n: α^n is not 0, so it is a power below n, and only α^0 can recur. -/
theorem TablesOk.alphaPow_n (h : TablesOk m P F) : alphaPow m P F.n = 1 := by
  obtain ⟨k, hk⟩ := Nat.exists_eq_add_of_le' h.n_pos
  have hne : alphaPow m P F.n ≠ 0 := by
    intro h0
    have hlast : alphaPow m P k = 0 := timesAlpha_inj h.odd (by rw [← alphaPow_succ, ← hk, h0, timesAlpha_zero])
    rw [← h.antilog_eq k (by omega)] at hlast
    exact h.antilog_ne k (by omega) (BitVec.eq_of_toNat_eq hlast)
  have hle : alphaPow m P F.n ≤ F.n := by
    have hlt := alphaPow_lt h.degree h.m_pos F.n
    have hn := h.n_eq
    omega
  have hpos := Nat.one_le_iff_ne_zero.2 hne
  have hlt := h.log_lt _ hpos hle
  have hpow := h.alphaPow_logAt hpos hle
  generalize (F.logAt (alphaPow m P F.n)).toNat = e at hlt hpow
  obtain ⟨d, hd⟩ := Nat.exists_eq_add_of_le hlt.le
  rw [hd] at hpow
  have hd1 := alphaPow_sub_eq_one h.odd hpow
  have he : e = 0 := by
    by_contra hne
    have := h.eq_zero_of_alphaPow_eq_one (by omega) hd1
    omega
  subst he
  rw [hd, ← hpow, alphaPow_zero]

theorem TablesOk.alphaPow_mod (h : TablesOk m P F) (e : Nat) : alphaPow m P (e % F.n) = alphaPow m P e := by
  have hperiod : Function.IsPeriodicPt (timesAlpha m P) F.n 1 := by
    have hn := h.alphaPow_n
    rwa [alphaPow_eq_iterate] at hn
  rw [alphaPow_eq_iterate, alphaPow_eq_iterate, hperiod.iterate_mod_apply]

/-- `a_pow(e)` is α^e for every exponent (R95). -/
theorem TablesOk.toNat_pow (h : TablesOk m P F) (e : Nat) : (F.pow e).toNat = alphaPow m P e := by
  rw [GfTables.pow, h.antilog_eq _ (Nat.mod_lt e h.n_pos), h.alphaPow_mod]

theorem TablesOk.pow_ne_zero (h : TablesOk m P F) (e : Nat) : F.pow e ≠ 0 :=
  h.antilog_ne _ (Nat.mod_lt e h.n_pos).le

/-- The logarithm of a power is its exponent modulo n (R98 (e)). -/
theorem TablesOk.logAt_pow (h : TablesOk m P F) (e : Nat) : (F.logAt (F.pow e).toNat).toNat = e % F.n :=
  h.log_antilog _ (Nat.mod_lt e h.n_pos)

/-- A nonzero element is the power of its logarithm (R98 (e)). -/
theorem TablesOk.pow_logAt (h : TablesOk m P F) {a : Half} (ha : F.elem a) (ha0 : a ≠ 0) :
    F.pow (F.logAt a.toNat).toNat = a :=
  BitVec.eq_of_toNat_eq (by rw [h.toNat_pow, h.alphaPow_logAt (one_le_toNat ha0) ha])

/-- The elements are 0 and the powers of α. -/
theorem TablesOk.eq_zero_or_pow (h : TablesOk m P F) {a : Half} (ha : F.elem a) : a = 0 ∨ ∃ e, a = F.pow e := by
  obtain h0 | h0 := eq_or_ne a 0
  · exact .inl h0
  · exact .inr ⟨_, (h.pow_logAt ha h0).symm⟩

theorem GfTables.pow_add_n (F : GfTables) (e : Nat) : F.pow (e + F.n) = F.pow e := by
  rw [GfTables.pow, Nat.add_mod_right, GfTables.pow]

theorem TablesOk.pow_zero (h : TablesOk m P F) : F.pow 0 = 1 :=
  BitVec.eq_of_toNat_eq (h.toNat_pow 0)

/-! ## Products -/

theorem GfTables.zero_mul (F : GfTables) (a : Half) : F.mul 0 a = 0 := if_pos (.inl rfl)

theorem GfTables.mul_zero (F : GfTables) (a : Half) : F.mul a 0 = 0 := if_pos (.inr rfl)

theorem GfTables.mul_of_ne_zero (F : GfTables) {a b : Half} (ha : a ≠ 0) (hb : b ≠ 0) :
    F.mul a b = F.pow ((F.logAt a.toNat).toNat + (F.logAt b.toNat).toNat) := if_neg (not_or.2 ⟨ha, hb⟩)

theorem GfTables.mul_comm (F : GfTables) (a b : Half) : F.mul a b = F.mul b a := by
  unfold GfTables.mul
  exact if_congr or_comm rfl (by rw [Nat.add_comm])

/-- A product of powers adds the exponents (R98 (f)). -/
theorem TablesOk.mul_pow (h : TablesOk m P F) (d e : Nat) : F.mul (F.pow d) (F.pow e) = F.pow (d + e) := by
  rw [F.mul_of_ne_zero (h.pow_ne_zero d) (h.pow_ne_zero e), h.logAt_pow, h.logAt_pow, GfTables.pow, ← Nat.add_mod,
    GfTables.pow]

/-- A product with α^e is e multiplications by α. -/
theorem TablesOk.toNat_pow_mul (h : TablesOk m P F) (e : Nat) {b : Half} (hb : F.elem b) :
    (F.mul (F.pow e) b).toNat = (timesAlpha m P)^[e] b.toNat := by
  obtain rfl | ⟨d, rfl⟩ := h.eq_zero_or_pow hb
  · rw [F.mul_zero]
    exact (timesAlpha_iterate_zero m P e).symm
  · rw [h.mul_pow, h.toNat_pow, h.toNat_pow, alphaPow_eq_iterate, Function.iterate_add_apply, ← alphaPow_eq_iterate]

theorem TablesOk.mul_assoc (h : TablesOk m P F) {a b c : Half} (ha : F.elem a) (hb : F.elem b) (hc : F.elem c) :
    F.mul (F.mul a b) c = F.mul a (F.mul b c) := by
  obtain rfl | ⟨i, rfl⟩ := h.eq_zero_or_pow ha
  · simp only [F.zero_mul]
  obtain rfl | ⟨j, rfl⟩ := h.eq_zero_or_pow hb
  · simp only [F.zero_mul, F.mul_zero]
  obtain rfl | ⟨k, rfl⟩ := h.eq_zero_or_pow hc
  · simp only [F.mul_zero]
  rw [h.mul_pow, h.mul_pow, h.mul_pow, h.mul_pow, Nat.add_assoc]

theorem TablesOk.one_mul (h : TablesOk m P F) {a : Half} (ha : F.elem a) : F.mul 1 a = a := by
  rw [← h.pow_zero]
  exact BitVec.eq_of_toNat_eq (h.toNat_pow_mul 0 ha)

/-- Multiplication distributes over addition, since multiplication by α is linear (R98 (b)). -/
theorem TablesOk.mul_gfAdd (h : TablesOk m P F) {a b c : Half} (ha : F.elem a) (hb : F.elem b) (hc : F.elem c) :
    F.mul a (gfAdd b c) = gfAdd (F.mul a b) (F.mul a c) := by
  obtain rfl | ⟨e, rfl⟩ := h.eq_zero_or_pow ha
  · simp only [F.zero_mul]; rfl
  refine BitVec.eq_of_toNat_eq ?_
  rw [h.toNat_pow_mul e (h.elem_gfAdd hb hc), gfAdd, gfAdd, BitVec.toNat_xor, BitVec.toNat_xor, timesAlpha_iterate_xor,
    h.toNat_pow_mul e hb, h.toNat_pow_mul e hc]

/-- There are no zero divisors (R98 (d)). -/
theorem TablesOk.mul_eq_zero (h : TablesOk m P F) {a b : Half} : F.mul a b = 0 ↔ a = 0 ∨ b = 0 := by
  refine ⟨fun hab => ?_, fun hab => if_pos hab⟩
  by_contra hne
  obtain ⟨ha, hb⟩ := not_or.1 hne
  exact h.pow_ne_zero _ (F.mul_of_ne_zero ha hb ▸ hab)

/-- Division undoes multiplication (R98 (c)). -/
theorem TablesOk.div_mul (h : TablesOk m P F) {a b : Half} (ha : F.elem a) (hb : F.elem b) (hb0 : b ≠ 0) :
    F.mul (F.div a b) b = a := by
  obtain rfl | ha0 := eq_or_ne a 0
  · rw [GfTables.div, if_pos rfl, F.zero_mul]
  have hdiv : F.div a b = F.pow ((F.logAt a.toNat).toNat + F.n - (F.logAt b.toNat).toNat) := if_neg ha0
  have hlog := h.log_lt _ (one_le_toNat hb0) hb
  calc F.mul (F.div a b) b
      = F.mul (F.pow ((F.logAt a.toNat).toNat + F.n - (F.logAt b.toNat).toNat)) (F.pow (F.logAt b.toNat).toNat) := by
        rw [hdiv, h.pow_logAt hb hb0]
    _ = F.pow ((F.logAt a.toNat).toNat + F.n) := by rw [h.mul_pow, Nat.sub_add_cancel (by omega)]
    _ = a := by rw [F.pow_add_n, h.pow_logAt ha ha0]

/-- Squaring is additive: the two mixed products cancel (R98 (g)). -/
theorem TablesOk.square_gfAdd (h : TablesOk m P F) {a b : Half} (ha : F.elem a) (hb : F.elem b) :
    F.mul (gfAdd a b) (gfAdd a b) = gfAdd (F.mul a a) (F.mul b b) := by
  have hab := h.elem_gfAdd ha hb
  rw [h.mul_gfAdd hab ha hb, F.mul_comm _ a, F.mul_comm _ b, h.mul_gfAdd ha ha hb, h.mul_gfAdd hb ha hb, F.mul_comm b a]
  unfold gfAdd
  rw [BitVec.xor_assoc, ← BitVec.xor_assoc (F.mul a b), BitVec.xor_self, BitVec.zero_xor]

end BuiltField

/-- Settles O38: with a = α^j both sides are b multiplied j times by α. -/
theorem gfMulIsThePolynomialProduct : Obligations.GfMulIsThePolynomialProduct := by
  intro m P F a b h ha hb
  obtain rfl | ⟨j, rfl⟩ := h.eq_zero_or_pow ha
  · rw [F.zero_mul]
    exact (pmod_clmul_zero_left _ P).symm
  · rw [h.toNat_pow_mul j hb, h.toNat_pow, pmod_clmul_alphaPow h.degree h.m_pos j (h.lt_two_pow hb)]

/-- Settles O39. -/
theorem fieldLaws : Obligations.FieldLaws := fun _ _ F a b _ h ha hb hc =>
  ⟨⟨F.mul_comm a b, h.mul_assoc ha hb hc, h.one_mul ha⟩, h.mul_gfAdd ha hb hc, h.div_mul ha hb, h.mul_eq_zero,
    ⟨h.pow_logAt ha, h.logAt_pow⟩, fun d e => (h.mul_pow d e).symm, h.square_gfAdd ha hb⟩

end Sys2Proof.Machine
end

section
/-! The seven field commands (R99 to R107): the checks of R100 first, then what each writes and answers. -/

namespace Sys2Proof.Machine

/-! ## The checks of R100 -/

/-- The source values that the checks test; nothing for a command of another unit. -/
def State.gfSources (s : State) (i : Instr) : Option (List Half) :=
  match i with
  | .gfli _ v => some [v]
  | .gfrd a => some [s.readG a]
  | .gfadd _ a b => some [s.readG a, s.readG b]
  | .gfmul _ a b => some [s.readG a, s.readG b]
  | .gfdiv _ a b => some [s.readG a, s.readG b]
  | .gflog _ a => some [s.readG a]
  | .gfalog _ a => some [s.readG a]
  | _ => none

section Checks

variable {s : State} {i : Instr} {vs : List Half}

/-- A field command whose checks fail reports the error and changes nothing else. -/
theorem exec_of_gfCheck_some {e : Err} (hvs : s.gfSources i = some vs) (he : s.gfCheck vs = some e) :
    exec i s = .next (s.report e.code 0) := by
  have hwrite (rd : GReg) (v : Half) : s.gfWrite rd vs v = .err e s := by rw [State.gfWrite_eq, he]
  refine exec_of_body_err ?_
  cases i <;> cases hvs
  case gfli => rw [commandBody, gfliBody, he]
  case gfrd => rw [commandBody, gfrdBody, he]
  case gfadd => exact hwrite _ _
  case gfmul => exact hwrite _ _
  case gfdiv => rw [commandBody, gfdivBody, he]
  case gflog => exact hwrite _ _
  case gfalog => exact hwrite _ _

/-- In EMPTY every field command raises `BadSequence` (R100 (2)). -/
theorem exec_gf_of_empty (hvs : s.gfSources i = some vs) (hc : s.cfgstate = .empty) :
    exec i s = .next { s with rsp := response 6 0, lasterr := 6 } :=
  exec_of_gfCheck_some hvs ((s.gfCheck_some vs .badSequence).2 (.inl ⟨hc, rfl⟩))

/-- In a built field a source above n raises `OperandRange` (R100 (3)). -/
theorem exec_gf_of_range (hvs : s.gfSources i = some vs) (hc : s.cfgstate ≠ .empty) {v : Half} (hv : v ∈ vs)
    (hn : s.n.toNat < v.toNat) : exec i s = .next { s with rsp := response 8 0, lasterr := 8 } :=
  exec_of_gfCheck_some hvs ((s.gfCheck_some vs .operandRange).2 (.inr ⟨hc, ⟨v, hv, hn⟩, rfl⟩))

/-- One source that is an element passes. -/
theorem State.gfCheck_one (hc : s.cfgstate ≠ .empty) {v : Half} (hv : v.toNat ≤ s.n.toNat) : s.gfCheck [v] = none :=
  (s.gfCheck_none _).2 ⟨hc, by simpa using hv⟩

/-- Two sources that are elements pass. -/
theorem State.gfCheck_two (hc : s.cfgstate ≠ .empty) {v w : Half} (hv : v.toNat ≤ s.n.toNat)
    (hw : w.toNat ≤ s.n.toNat) : s.gfCheck [v, w] = none :=
  (s.gfCheck_none _).2 ⟨hc, by simpa using ⟨hv, hw⟩⟩

/-- After the checks a computing command writes its value (R26). -/
theorem State.gfWrite_of_gfCheck (h : s.gfCheck vs = none) (rd : GReg) (v : Half) :
    s.gfWrite rd vs v = .ok v (s.setG rd v) := by rw [State.gfWrite_eq, h]

end Checks

/-- Settles O37. -/
theorem gfChecksComeInOrder : Obligations.GfChecksComeInOrder := by
  intro rd a b v s
  refine ⟨fun i hi hc => ?_, fun hc hn => exec_gf_of_range rfl hc (List.mem_singleton_self v) hn, fun i hi hc hn => ?_⟩
  · have hsources : ∃ vs, s.gfSources i = some vs := by
      revert i
      simp [State.gfSources]
    obtain ⟨vs, hvs⟩ := hsources
    exact exec_gf_of_empty hvs hc
  · have hsources : ∃ vs, s.gfSources i = some vs ∧ s.readG a ∈ vs := by
      revert i
      simp [State.gfSources]
    obtain ⟨vs, hvs, hmem⟩ := hsources
    exact exec_gf_of_range hvs hc hmem hn

/-! ## GFLI and GFRD -/

/-- Settles O34. -/
theorem gfliLoadsAndGfrdReads : Obligations.GfliLoadsAndGfrdReads := by
  intro r v s
  refine ⟨fun hc => ⟨fun hv => ?_, fun hv => ?_, fun hr => ?_⟩, fun hc => ⟨?_, ?_⟩⟩
  · have hbody : gfliBody r v s = .ok 0 (s.setG r v) := by rw [gfliBody, State.gfCheck_one hc hv]
    exact exec_of_body_ok (i := .gfli r v) hbody
  · exact exec_gf_of_range rfl hc (List.mem_singleton_self v) hv
  · have hbody : gfrdBody r s = .ok (s.readG r) s := by rw [gfrdBody, State.gfCheck_one hc hr]
    exact exec_of_body_ok (i := .gfrd r) hbody
  · exact exec_gf_of_empty rfl hc
  · exact exec_gf_of_empty rfl hc

/-! ## The computing commands -/

/-- `GFDIV` after its range checks: the zero divisor is refused (R105). -/
theorem gfdivBody_of_gfCheck {s : State} {a b : GReg} (h : s.gfCheck [s.readG a, s.readG b] = none) (rd : GReg) :
    gfdivBody rd a b s =
      if s.readG b = 0 then .err .gfDivideByZero s
      else .ok (s.tables.div (s.readG a) (s.readG b)) (s.setG rd (s.tables.div (s.readG a) (s.readG b))) := by
  rw [gfdivBody, h]

/-- Settles O35. -/
theorem gfBinaryCommandsCompute : Obligations.GfBinaryCommandsCompute := by
  intro rd a b s hc ha hb
  have hcheck := State.gfCheck_two hc ha hb
  have hdiv := gfdivBody_of_gfCheck hcheck rd
  exact ⟨exec_of_body_ok (i := .gfadd rd a b) (State.gfWrite_of_gfCheck hcheck rd _),
    exec_of_body_ok (i := .gfmul rd a b) (State.gfWrite_of_gfCheck hcheck rd _),
    fun h0 => exec_of_body_ok (i := .gfdiv rd a b) (hdiv.trans (if_neg h0)),
    fun h0 => exec_of_body_err (i := .gfdiv rd a b) (hdiv.trans (if_pos h0))⟩

/-- Settles O36. -/
theorem gfTableCommandsLookUp : Obligations.GfTableCommandsLookUp := by
  intro rd a s hc hf
  have hcheck := State.gfCheck_one hc (hf.regs a)
  refine ⟨exec_of_body_ok (i := .gflog rd a) (State.gfWrite_of_gfCheck hcheck rd _),
    exec_of_body_ok (i := .gfalog rd a) (State.gfWrite_of_gfCheck hcheck rd _), fun h0 => ?_, fun hn => ?_⟩
  · rw [h0]
    exact BitVec.eq_of_toNat_eq hf.tables.log_zero
  · rw [hn]
    exact hf.tables.antilog_top

end Sys2Proof.Machine
end

section
/-! The buffer commands (R110 to R112): the numbers of the spaces, then each check of `STB` and `LD` in the rule's order
and what follows when all of them pass. -/

namespace Sys2Proof.Machine

/-! ## The address-space map (R45) -/

/-- The number of a space in the map of R45. -/
def Space.number (sp : Space) : BitVec 4 :=
  match sp with
  | .msg => 0
  | .ecc => 1
  | .eccs => 2
  | .syn => 3
  | .elp => 4
  | .loc => 5
  | .log => 6
  | .antilog => 7
  | .gen => 8

/-- The nine spaces, in the order of their numbers. -/
def Space.all : List Space := [.msg, .ecc, .eccs, .syn, .elp, .loc, .log, .antilog, .gen]

@[simp] theorem spaceNumber_number (sp : Space) : spaceNumber sp.number = some sp := by cases sp <;> rfl

theorem spaceNumber_eq_some {sp : Space} {space : BitVec 4} : spaceNumber space = some sp → space = sp.number := by
  revert space
  cases sp <;> decide

/-- The numbers above 8 are reserved. -/
theorem spaceNumber_reserved {space : BitVec 4} : 8 < space.toNat → spaceNumber space = none := by
  revert space; decide

/-- The numbers 0 to 8 are those of the spaces. -/
theorem exists_space_of_le {space : BitVec 4} (h : space.toNat ≤ 8) : ∃ sp : Space, space = sp.number := by
  have hsome : (spaceNumber space).isSome = true := by
    revert space; decide
  obtain ⟨sp, hsp⟩ := Option.isSome_iff_exists.1 hsome
  exact ⟨sp, spaceNumber_eq_some hsp⟩

/-- The numbers 0 and 1 are those of the two host-writable spaces. -/
theorem writable_of_le {space : BitVec 4} : space.toNat ≤ 1 → space = Space.msg.number ∨ space = Space.ecc.number := by
  revert space; decide

/-- The tables, spaces 6 and 7, are usable once a field is built, the other spaces once a code is derived. -/
theorem State.spaceUsable_iff (s : State) (sp : Space) :
    s.spaceUsable sp = true ↔
      if sp.number = 6 ∨ sp.number = 7 then s.cfgstate ≠ .empty else s.cfgstate = .code := by
  cases sp <;> simp [State.spaceUsable, Space.number]

/-- When a space is not usable. -/
theorem State.spaceUsable_eq_false_iff (s : State) (sp : Space) :
    s.spaceUsable sp = false ↔
      if sp.number = 6 ∨ sp.number = 7 then s.cfgstate = .empty else s.cfgstate ≠ .code := by
  rw [← Bool.not_eq_true, State.spaceUsable_iff]
  split
  · exact not_not
  · exact Iff.rfl

/-- A derived code makes every space usable. -/
theorem State.spaceUsable_of_code {s : State} (hc : s.cfgstate = .code) (sp : Space) : s.spaceUsable sp = true := by
  rw [State.spaceUsable_iff, hc]
  split
  · decide
  · rfl

/-! ## STB -/

section Stb

variable {sp : Space} {space : BitVec 4} {idx : BitVec 12} {d : Byte} {s : State}

/-- The numbers above 1 are those of no host-writable space (R45, R76). -/
theorem stbBody_illegal (h : 1 < space.toNat) : stbBody space idx d s = .err .illegalCommand s := by
  unfold stbBody
  split
  next hsp => rw [spaceNumber_eq_msg hsp] at h; exact absurd h (by decide)
  next hsp => rw [spaceNumber_eq_ecc hsp] at h; exact absurd h (by decide)
  next => rfl

theorem stbBody_writable (hsp : sp = .msg ∨ sp = .ecc) : stbBody sp.number idx d s = stbSpace sp idx d s := by
  obtain rfl | rfl := hsp <;> rfl

theorem stbSpace_of_not_code (hc : s.cfgstate ≠ .code) : stbSpace sp idx d s = .err .badSequence s := if_pos hc

theorem stbSpace_beyond (hc : s.cfgstate = .code) (hlen : s.spaceLen sp ≤ idx.toNat) :
    stbSpace sp idx d s = .err .invalidInputLength s := by
  rw [stbSpace, if_neg (not_not.2 hc), if_pos hlen]

theorem stbSpace_within (hc : s.cfgstate = .code) (hlen : idx.toNat < s.spaceLen sp) :
    stbSpace sp idx d s = .ok 0 ((s.writeSpace sp idx.toNat d).setStage .idle) := by
  rw [stbSpace, if_neg (not_not.2 hc), if_neg (Nat.not_le.2 hlen)]

theorem exec_stb_of_not_code (hsp : sp = .msg ∨ sp = .ecc) (hc : s.cfgstate ≠ .code) :
    exec (.stb sp.number idx d) s = .next (s.report 6 0) :=
  exec_of_body_err (e := .badSequence) ((stbBody_writable hsp).trans (stbSpace_of_not_code hc))

theorem exec_stb_beyond (hsp : sp = .msg ∨ sp = .ecc) (hc : s.cfgstate = .code) (hlen : s.spaceLen sp ≤ idx.toNat) :
    exec (.stb sp.number idx d) s = .next (s.report 3 0) :=
  exec_of_body_err (e := .invalidInputLength) ((stbBody_writable hsp).trans (stbSpace_beyond hc hlen))

theorem exec_stb_within (hsp : sp = .msg ∨ sp = .ecc) (hc : s.cfgstate = .code) (hlen : idx.toNat < s.spaceLen sp) :
    exec (.stb sp.number idx d) s = .next (((s.writeSpace sp idx.toNat d).setStage .idle).report 0 0) :=
  exec_of_body_ok ((stbBody_writable hsp).trans (stbSpace_within hc hlen))

end Stb

/-- What a stored buffer reads as: the byte at its index, every other index as before. -/
theorem Memory.read_write_and_frame {mem : Memory} (h : mem.wf = true) (i : Nat) (v : Byte) :
    (mem.write i v).read i = v ∧ ∀ a, a ≠ i → (mem.write i v).read a = mem.read a :=
  ⟨by rw [Memory.read_write mem i i v h, if_pos rfl], fun a ha => by rw [Memory.read_write mem i a v h, if_neg ha]⟩

/-- Settles O40. -/
theorem stbStoresOneByte : Obligations.StbStoresOneByte := by
  intro space idx d s ⟨hmsg, hecc, _⟩
  refine ⟨fun hc hlen => ⟨_, exec_stb_within (sp := .msg) (.inl rfl) hc hlen, rfl, Memory.read_write_and_frame hmsg _ _⟩,
    fun hc hlen => ⟨_, exec_stb_within (sp := .ecc) (.inr rfl) hc hlen, rfl, Memory.read_write_and_frame hecc _ _⟩,
    fun h => exec_of_body_err (e := .illegalCommand) (stbBody_illegal h), fun h hc => ?_,
    exec_stb_beyond (sp := .msg) (.inl rfl), exec_stb_beyond (sp := .ecc) (.inr rfl)⟩
  obtain rfl | rfl := writable_of_le h
  · exact exec_stb_of_not_code (.inl rfl) hc
  · exact exec_stb_of_not_code (.inr rfl) hc

/-! ## LD -/

section Ld

variable {sp : Space} {space : BitVec 4} {idx : Half} {s : State}

/-- The body of `LD` once its number is known to be that of a space. -/
theorem ldBody_number (sp : Space) (idx : Half) (s : State) :
    ldBody sp.number idx s =
      if !s.spaceUsable sp then .err .badSequence s
      else if s.spaceLen sp ≤ idx.toNat then .err .invalidInputLength s
      else .ok (s.readSpace sp idx.toNat) s := by
  rw [ldBody, spaceNumber_number]

theorem exec_ld_reserved (h : 8 < space.toNat) : exec (.ld space idx) s = .next (s.report 5 0) :=
  exec_of_body_err (e := .illegalCommand) (by rw [commandBody, ldBody, spaceNumber_reserved h])

theorem exec_ld_unusable (hu : s.spaceUsable sp = false) : exec (.ld sp.number idx) s = .next (s.report 6 0) :=
  exec_of_body_err (e := .badSequence) (by rw [commandBody, ldBody_number, hu]; rfl)

theorem exec_ld_beyond (hu : s.spaceUsable sp = true) (hlen : s.spaceLen sp ≤ idx.toNat) :
    exec (.ld sp.number idx) s = .next (s.report 3 0) :=
  exec_of_body_err (e := .invalidInputLength) (by
    rw [commandBody, ldBody_number, hu, if_neg (by decide), if_pos hlen])

theorem exec_ld_within (hu : s.spaceUsable sp = true) (hlen : idx.toNat < s.spaceLen sp) :
    exec (.ld sp.number idx) s = .next (s.report 0 (s.readSpace sp idx.toNat)) :=
  exec_of_body_ok (by rw [commandBody, ldBody_number, hu, if_neg (by decide), if_neg (Nat.not_le.2 hlen)])

end Ld

/-- Bit b of packed byte i, counted from the highest, is bit 8 i + b of the buffer bit order (R50, R120). -/
theorem packByte_getMsbD (w R i : Nat) {b : Nat} (hb : b < 8) :
    (packByte w R i).getMsbD b = (decide (8 * i + b < w) && R.testBit (w - 1 - (8 * i + b))) := by
  rw [packByte, BitVec.getMsbD_ofBoolListBE]
  interval_cases b <;> rfl

/-- Settles O41. -/
theorem ldReadsOneElement : Obligations.LdReadsOneElement := by
  intro space idx s
  refine ⟨fun hc => ?_, fun hc hidx => ?_, exec_ld_reserved, fun h hc => ?_, fun p hp hc hidx => ?_⟩
  · have hu := State.spaceUsable_of_code hc
    refine ⟨exec_ld_within (hu .msg), exec_ld_within (hu .ecc), exec_ld_within (hu .eccs), exec_ld_within (hu .syn),
      exec_ld_within (hu .elp), exec_ld_within (hu .loc), fun hidx => ⟨_, exec_ld_within (hu .gen) hidx, fun b hb => ?_⟩⟩
    simp only [packByte_getMsbD _ _ _ hb, Nat.lt_succ_iff, Nat.add_sub_cancel]
  · have hlen : idx.toNat < s.n.toNat + 1 := Nat.lt_succ_of_le hidx
    exact ⟨exec_ld_within (sp := .log) ((s.spaceUsable_iff .log).2 hc) hlen,
      exec_ld_within (sp := .antilog) ((s.spaceUsable_iff .antilog).2 hc) hlen⟩
  · obtain ⟨sp, rfl⟩ := exists_space_of_le h
    exact exec_ld_unusable ((s.spaceUsable_eq_false_iff sp).2 hc)
  · have hmap : p ∈ Space.all.map fun sp => (sp.number, s.spaceLen sp) := hp
    obtain ⟨sp, -, rfl⟩ := List.mem_map.1 hmap
    exact exec_ld_beyond ((s.spaceUsable_iff sp).2 hc) hidx

end Sys2Proof.Machine
end

section
/-! Numbers read from a buffer, first bit highest (R48, R120): the message polynomial and `unpack` are the same reading,
and its bits are the buffer's. -/

namespace Sys2Proof.Machine

/-- Shifting a bit in from below: nothing overlaps. -/
theorem shiftLeft_or_bit (v : Nat) (b : Bool) : v <<< 1 ||| b.toNat = v <<< 1 ^^^ b.toNat := by
  refine Nat.eq_of_testBit_eq fun i => ?_
  rw [Nat.testBit_or, Nat.testBit_xor]
  cases i <;> simp [Nat.testBit_bool_toNat]

/-- The number `v` with the bits `bs` shifted in from below, the first of them first. -/
def shiftIn (v : Nat) (bs : List Bool) : Nat := bs.foldl (fun v b => v <<< 1 ||| b.toNat) v

@[simp] theorem shiftIn_nil (v : Nat) : shiftIn v [] = v := rfl

theorem shiftIn_cons (v : Nat) (b : Bool) (bs : List Bool) : shiftIn v (b :: bs) = shiftIn (v <<< 1 ^^^ b.toNat) bs := by
  rw [← shiftLeft_or_bit]
  rfl

/-- The eight bits of a byte, highest first, are the byte. -/
theorem shiftIn_byte (d : Byte) : shiftIn 0 ((List.range 8).map d.getMsbD) = d.toNat := by
  revert d; decide

theorem unpack_eq_shiftIn (w : Nat) (buf : Memory) : unpack w buf = shiftIn 0 ((List.range w).map buf.bit) := by
  rw [shiftIn, List.foldl_map]
  rfl

theorem unpack_succ (w : Nat) (buf : Memory) : unpack (w + 1) buf = unpack w buf <<< 1 ^^^ (buf.bit w).toNat := by
  rw [← shiftLeft_or_bit, unpack, List.range_succ, List.foldl_append]
  rfl

/-- More bits of the buffer are shifted in below those already read. -/
theorem unpack_add (v r : Nat) (buf : Memory) :
    unpack (v + r) buf = shiftIn (unpack v buf) ((List.range' v r).map buf.bit) := by
  rw [unpack_eq_shiftIn, unpack_eq_shiftIn, List.range_add, ← List.range'_eq_map_range, List.map_append, shiftIn,
    List.foldl_append]
  rfl

/-- The first bit of the buffer is the highest of the number (R120). -/
theorem unpack_testBit (w : Nat) (buf : Memory) (i : Nat) :
    (unpack w buf).testBit i = (decide (i < w) && buf.bit (w - 1 - i)) := by
  induction w generalizing i with
  | zero => simp [unpack]
  | succ w ih =>
    rw [unpack_succ, Nat.testBit_xor, Nat.testBit_shiftLeft, Nat.testBit_bool_toNat]
    cases i with
    | zero => simp
    | succ i => simp [ih, Nat.sub_sub, Nat.add_comm]

/-- The first bits of a bitwise sum (R122). -/
theorem unpack_xor {w : Nat} {a b c : Memory} (h : ∀ j, j < w → c.bit j = (a.bit j ^^ b.bit j)) :
    unpack w c = unpack w a ^^^ unpack w b := by
  refine Nat.eq_of_testBit_eq fun i => ?_
  rw [Nat.testBit_xor, unpack_testBit, unpack_testBit, unpack_testBit]
  by_cases hi : i < w
  · simp [hi, h (w - 1 - i) (by omega)]
  · simp [hi]

/-- Leading zero bits do not count (R123). -/
theorem unpack_of_leading_zeros {v w : Nat} {a b : Memory} (hvw : v ≤ w) (hzero : ∀ j, j < w - v → b.bit j = false)
    (hsame : ∀ j, j < v → b.bit (w - v + j) = a.bit j) : unpack w b = unpack v a := by
  refine Nat.eq_of_testBit_eq fun i => ?_
  rw [unpack_testBit, unpack_testBit]
  by_cases hi : i < v
  · rw [← hsame (v - 1 - i) (by omega), show w - v + (v - 1 - i) = w - 1 - i by omega]
    simp [hi, hi.trans_le hvw]
  · by_cases hiw : i < w
    · simp [hi, hzero (w - 1 - i) (by omega)]
    · simp [hi, hiw]

/-- The bits of a byte of a buffer are eight consecutive buffer bits (R47). -/
theorem Memory.bit_of_byte (mem : Memory) (q : Nat) {b : Nat} (hb : b < 8) :
    mem.bit (8 * q + b) = (mem.read q).getMsbD b := by
  rw [Memory.bit, show (8 * q + b) / 8 = q by omega, show (8 * q + b) % 8 = b by omega]

/-- A whole byte is added below the bits before it. -/
theorem unpack_add_byte (q : Nat) (buf : Memory) :
    unpack (8 * (q + 1)) buf = shiftIn (unpack (8 * q) buf) ((List.range 8).map (buf.read q).getMsbD) := by
  rw [Nat.mul_succ, unpack_add, List.range'_eq_map_range, List.map_map]
  refine congrArg _ (List.map_congr_left fun b hb => ?_)
  exact Memory.bit_of_byte buf q (List.mem_range.1 hb)

/-- The message polynomial is the message read as a number, its first bit the highest (R48). -/
theorem messagePoly_eq_unpack (k : Nat) (msg : Memory) : messagePoly k msg = unpack k msg := by
  suffices h : ∀ j ≤ k, (List.range j).foldl
      (fun acc j => acc ^^^ (if msg.bit j then 1 <<< (k - 1 - j) else 0)) 0 = unpack j msg <<< (k - j) by
    rw [messagePoly, h k le_rfl, Nat.sub_self, Nat.shiftLeft_zero]
  intro j hj
  induction j with
  | zero => simp [unpack]
  | succ j ih =>
    obtain ⟨n, rfl⟩ : ∃ n, k = n + 1 + j := ⟨k - 1 - j, by omega⟩
    rw [List.range_succ, List.foldl_append, ih (by omega), unpack_succ, Nat.shiftLeft_xor_distrib, ← Nat.shiftLeft_add,
      show n + 1 + j - j = 1 + n by omega, show n + 1 + j - (j + 1) = n by omega]
    simp only [List.foldl_cons, List.foldl_nil, show n + 1 + j - 1 - j = n by omega]
    cases msg.bit j <;> simp

end Sys2Proof.Machine
end

section
/-! The divider (R115 to R119): each of its steps multiplies by a power of x, adds the new bits times x^E, and takes the
value at a root of g. After j message bits it holds the remainder of the number of those bits times x^E. -/

namespace Sys2Proof.Machine

section Steps

variable {g : Nat}

/-- A polynomial that is not 0 has its leading bit at its degree. -/
theorem shiftRight_log2 (h : g ≠ 0) : g >>> g.log2 = 1 := by
  rw [Nat.shiftRight_eq_div_pow]
  exact Nat.div_eq_of_lt_le (by simpa using Nat.log2_self_le h) (by simpa [pow_succ, mul_comm] using Nat.lt_log2_self)

theorem one_le_log2 (hg : 2 ≤ g) : 1 ≤ g.log2 := (Nat.le_log2 (by omega)).2 hg

@[simp] theorem dividerOf_gen (g : Nat) : (dividerOf g).gen = g := rfl
@[simp] theorem dividerOf_e (g : Nat) : (dividerOf g).e = g.log2 := rfl
@[simp] theorem dividerOf_mod8 (g : Nat) : (dividerOf g).mod8 = mod8Table g g.log2 := rfl

/-- A value at α is below x^E. -/
theorem atAlpha_lt {m P : Nat} (hP : P >>> m = 1) (hm : 1 ≤ m) (x : Nat) : atAlpha m P x < 2 ^ m :=
  pmod_eq_atAlpha hP hm x ▸ pmod_lt hP x

/-- Reducing before a shift changes nothing. -/
theorem atAlpha_shiftLeft_atAlpha {m P : Nat} (hP : P >>> m = 1) (hm : 1 ≤ m) (x k : Nat) :
    atAlpha m P (atAlpha m P x <<< k) = atAlpha m P (x <<< k) := by
  rw [atAlpha_shiftLeft, atAlpha_shiftLeft, atAlpha_of_lt P (atAlpha_lt hP hm x)]

/-- Multiplication by α with the overflowing bit cut off on both sides, as the divider computes it. -/
theorem timesAlpha_eq_mod {m P x : Nat} (hP : P >>> m = 1) (hx : x < 2 ^ m) :
    timesAlpha m P x = if (x <<< 1).testBit m then (x <<< 1) % 2 ^ m ^^^ P % 2 ^ m else (x <<< 1) % 2 ^ m := by
  rw [← Nat.mod_eq_of_lt (timesAlpha_lt hP hx), timesAlpha, apply_ite (· % 2 ^ m), Nat.xor_mod_two_pow]

/-- The bit-serial step (R115): the register times x and the new bit times x^E, reduced. -/
theorem step1_eq (hg : 2 ≤ g) {R : Nat} (hR : R < 2 ^ g.log2) (b : Bool) :
    (dividerOf g).step1 R b = atAlpha g.log2 g (R <<< 1 ^^^ b.toNat <<< g.log2) := by
  have hP : g >>> g.log2 = 1 := shiftRight_log2 (by omega)
  obtain ⟨e, he⟩ : ∃ e, g.log2 = e + 1 := Nat.exists_eq_add_of_le' (one_le_log2 hg)
  have hx : R ^^^ b.toNat <<< e < 2 ^ g.log2 := by
    refine Nat.xor_lt_two_pow hR ?_
    rw [he]
    cases b <;> simp [Nat.one_shiftLeft, Nat.pow_lt_pow_right]
  have hin : R <<< 1 ^^^ b.toNat <<< g.log2 = (R ^^^ b.toNat <<< e) <<< 1 := by
    rw [Nat.shiftLeft_xor_distrib, ← Nat.shiftLeft_add, he]
  have hfb : (R <<< 1 ^^^ b.toNat <<< g.log2).testBit g.log2 = (R.testBit (g.log2 - 1) ^^ b) := by
    cases b <;> simp [one_le_log2 hg]
  have hmod : (R <<< 1 ^^^ b.toNat <<< g.log2) % 2 ^ g.log2 = (R <<< 1) % 2 ^ g.log2 := by
    simp [Nat.xor_mod_two_pow, Nat.shiftLeft_eq]
  rw [hin, atAlpha_shiftLeft, atAlpha_of_lt g hx, Function.iterate_one, timesAlpha_eq_mod hP hx, ← hin, hfb, hmod]
  rfl

/-- A number is the sum over GF(2) of its lowest m bits and the rest. -/
theorem mod_xor_shiftRight (x m : Nat) : x % 2 ^ m ^^^ (x >>> m) <<< m = x := by
  refine Nat.eq_of_testBit_eq fun i => ?_
  rw [Nat.testBit_xor, Nat.testBit_mod_two_pow, Nat.testBit_shiftLeft, Nat.testBit_shiftRight]
  by_cases hi : i < m
  · simp [hi, Nat.not_le.2 hi]
  · simp [hi, Nat.not_lt.1 hi]

/-- The byte step (R117): the register times x^8 and the byte times x^E, reduced. -/
theorem step8_eq (hg : 2 ≤ g) {R : Nat} (hR : R < 2 ^ g.log2) (d : Byte) :
    (dividerOf g).step8 R d = atAlpha g.log2 g (R <<< 8 ^^^ d.toNat <<< g.log2) := by
  have hP : g >>> g.log2 = 1 := shiftRight_log2 (by omega)
  have hhigh : (R <<< 8) >>> g.log2 < 2 ^ 8 := by
    rw [Nat.shiftRight_eq_div_pow, Nat.shiftLeft_eq, Nat.div_lt_iff_lt_mul (Nat.two_pow_pos _), mul_comm]
    exact Nat.mul_lt_mul_of_pos_left hR (by decide)
  have hidx : (R <<< 8) >>> g.log2 ^^^ d.toNat < 256 := Nat.xor_lt_two_pow hhigh d.isLt
  calc (dividerOf g).step8 R d
      = (R <<< 8) % 2 ^ g.log2 ^^^ pmod (((R <<< 8) >>> g.log2 ^^^ d.toNat) <<< g.log2) g := by
        rw [Divider.step8, dividerOf_e, dividerOf_mod8, mod8Table_getD _ _ hidx]
    _ = atAlpha g.log2 g ((R <<< 8) % 2 ^ g.log2 ^^^ ((R <<< 8) >>> g.log2 ^^^ d.toNat) <<< g.log2) := by
        rw [atAlpha_xor, atAlpha_of_lt g (Nat.mod_lt _ (Nat.two_pow_pos _)), pmod_eq_atAlpha hP (one_le_log2 hg)]
    _ = atAlpha g.log2 g (R <<< 8 ^^^ d.toNat <<< g.log2) := by
        rw [Nat.shiftLeft_xor_distrib, ← Nat.xor_assoc, mod_xor_shiftRight]

/-- Bit-serial steps shift the bits into the number whose remainder the register holds. -/
theorem foldl_step1_eq (hg : 2 ≤ g) (bs : List Bool) (x v : Nat) :
    bs.foldl (dividerOf g).step1 (atAlpha g.log2 g (x ^^^ v <<< g.log2)) =
      atAlpha g.log2 g (x <<< bs.length ^^^ shiftIn v bs <<< g.log2) := by
  have hP : g >>> g.log2 = 1 := shiftRight_log2 (by omega)
  induction bs generalizing x v with
  | nil => rfl
  | cons b bs ih =>
    have hstep : (dividerOf g).step1 (atAlpha g.log2 g (x ^^^ v <<< g.log2)) b =
        atAlpha g.log2 g (x <<< 1 ^^^ (v <<< 1 ^^^ b.toNat) <<< g.log2) := by
      rw [step1_eq hg (atAlpha_lt hP (one_le_log2 hg) _), atAlpha_xor, atAlpha_shiftLeft_atAlpha hP (one_le_log2 hg),
        ← atAlpha_xor, Nat.shiftLeft_xor_distrib, Nat.shiftLeft_xor_distrib, Nat.xor_assoc,
        ← Nat.shiftLeft_add, ← Nat.shiftLeft_add, Nat.add_comm 1]
    rw [List.foldl_cons, hstep, ih, shiftIn_cons, List.length_cons, ← Nat.shiftLeft_add, Nat.add_comm 1]

end Steps

/-- Settles O42. -/
theorem byteStepIsEightBitSteps : Obligations.ByteStepIsEightBitSteps := by
  intro g R d hg hR
  have hbits := foldl_step1_eq hg ((List.range 8).map d.getMsbD) R 0
  rw [Nat.zero_shiftLeft, Nat.xor_zero, atAlpha_of_lt g hR, shiftIn_byte, List.length_map, List.length_range] at hbits
  rw [step8_eq hg hR, hbits]

/-- The register after the message is the value at α of the message times x^E (R119). -/
theorem remainder_eq {g : Nat} (hg : 2 ≤ g) (k : Nat) (msg : Memory) :
    (dividerOf g).remainder k msg = atAlpha g.log2 g (unpack k msg <<< g.log2) := by
  have hP : g >>> g.log2 = 1 := shiftRight_log2 (by omega)
  have hbits (bs : List Bool) (v : Nat) : bs.foldl (dividerOf g).step1 (atAlpha g.log2 g (v <<< g.log2)) =
      atAlpha g.log2 g (shiftIn v bs <<< g.log2) := by
    simpa using foldl_step1_eq hg bs 0 v
  have hbytes (q : Nat) : (List.range q).foldl (fun R b => (dividerOf g).step8 R (msg.read b)) 0 =
      atAlpha g.log2 g (unpack (8 * q) msg <<< g.log2) := by
    induction q with
    | zero => simp [unpack]
    | succ q ih =>
      rw [List.range_succ, List.foldl_append, ih, List.foldl_cons, List.foldl_nil,
        byteStepIsEightBitSteps g _ _ hg (atAlpha_lt hP (one_le_log2 hg) _), hbits, unpack_add_byte]
  rw [Divider.remainder, hbytes, ← List.foldl_map (f := msg.bit) (g := (dividerOf g).step1), hbits, ← unpack_add,
    Nat.div_add_mod]

theorem remainder_lt {g : Nat} (hg : 2 ≤ g) (k : Nat) (msg : Memory) :
    (dividerOf g).remainder k msg < 2 ^ g.log2 :=
  remainder_eq hg k msg ▸ atAlpha_lt (shiftRight_log2 (by omega)) (one_le_log2 hg) _

/-- Settles O43. -/
theorem remainderIsThePolynomialRemainder : Obligations.RemainderIsThePolynomialRemainder := by
  intro g k msg hg
  rw [remainder_eq hg, messagePoly_eq_unpack, pmod_eq_atAlpha (shiftRight_log2 (by omega)) (one_le_log2 hg)]

/-- Settles O45. -/
theorem encodingIsLinear : Obligations.EncodingIsLinear := by
  intro g k a b c hg h
  rw [remainder_eq hg, remainder_eq hg, remainder_eq hg, unpack_xor h, Nat.shiftLeft_xor_distrib, atAlpha_xor]

/-- Settles O46. -/
theorem shorteningInvariance : Obligations.ShorteningInvariance := by
  intro g k1 k2 msg1 msg2 hg hk hzero hsame
  rw [remainder_eq hg, remainder_eq hg, unpack_of_leading_zeros hk hzero hsame]

end Sys2Proof.Machine
end

section
/-! Packing (R120): the bits of a packed value stand in a buffer in the order in which `unpack` reads them. -/

namespace Sys2Proof.Machine

@[simp] theorem pack_length (w R : Nat) : (pack w R).length = (w + 7) / 8 := by simp [pack]

theorem pack_getD {w i : Nat} (R : Nat) (hi : i < (w + 7) / 8) : (pack w R).getD i 0 = packByte w R i := by
  rw [pack, List.getD_eq_getElem _ _ (by simpa using hi), List.getElem_map, List.getElem_range]

/-- The bytes of a packed value, and those beyond it, which stay. -/
theorem read_writeBytes_pack {mem : Memory} (h : mem.wf = true) (w R a : Nat) :
    (mem.writeBytes 0 (pack w R)).read a = if a < (w + 7) / 8 then packByte w R a else mem.read a := by
  rw [Memory.read_writeBytes _ _ _ _ h, pack_length, Nat.zero_add, Nat.sub_zero]
  by_cases ha : a < (w + 7) / 8
  · rw [if_pos ⟨Nat.zero_le a, ha⟩, if_pos ha, pack_getD R ha]
  · rw [if_neg (fun hc => ha hc.2), if_neg ha]

/-- The bits of a packed value, highest first, then padding 0. -/
theorem bit_writeBytes_pack {mem : Memory} (h : mem.wf = true) (w R : Nat) {j : Nat} (hj : j < 8 * ((w + 7) / 8)) :
    (mem.writeBytes 0 (pack w R)).bit j = (decide (j < w) && R.testBit (w - 1 - j)) := by
  rw [Memory.bit, read_writeBytes_pack h, if_pos (by omega), packByte_getMsbD _ _ _ (Nat.mod_lt j (by decide)),
    Nat.div_add_mod]

/-- What is packed is unpacked again (R120). -/
theorem unpack_writeBytes_pack {mem : Memory} (h : mem.wf = true) {w R : Nat} (hR : R < 2 ^ w) :
    unpack w (mem.writeBytes 0 (pack w R)) = R := by
  refine Nat.eq_of_testBit_eq fun i => ?_
  rw [unpack_testBit]
  by_cases hi : i < w
  · rw [bit_writeBytes_pack h w R (by omega), show w - 1 - (w - 1 - i) = i by omega]
    simp [hi, show w - 1 - i < w by omega]
  · rw [Nat.testBit_lt_two_pow (hR.trans_le (Nat.pow_le_pow_right (by decide) (Nat.not_lt.1 hi)))]
    simp [hi]

/-- The closed form of R120: shift the value up until it fills its bytes, then cut out byte `i`. -/
theorem packByte_eq_shift (w R : Nat) {i : Nat} (hi : i < (w + 7) / 8) :
    packByte w R i = BitVec.ofNat 8 ((R <<< (8 * ((w + 7) / 8) - w)) >>> (8 * ((w + 7) / 8 - 1 - i))) := by
  refine BitVec.eq_of_getMsbD_eq fun b hb => ?_
  rw [packByte_getMsbD w R i hb, BitVec.getMsbD, BitVec.getLsbD_ofNat, Nat.testBit_shiftRight, Nat.testBit_shiftLeft]
  by_cases hbit : 8 * i + b < w
  · rw [show 8 * ((w + 7) / 8 - 1 - i) + (8 - 1 - b) - (8 * ((w + 7) / 8) - w) = w - 1 - (8 * i + b) by omega]
    simp [hb, hbit, show 8 - 1 - b < 8 by omega,
      show 8 * ((w + 7) / 8) - w ≤ 8 * ((w + 7) / 8 - 1 - i) + (8 - 1 - b) by omega]
  · simp [hbit, show ¬8 * ((w + 7) / 8) - w ≤ 8 * ((w + 7) / 8 - 1 - i) + (8 - 1 - b) by omega]

/-- Settles O44. -/
theorem packAndUnpack : Obligations.PackAndUnpack := by
  refine ⟨fun w R mem hR hwf => unpack_writeBytes_pack hwf hR, fun w buf i b hi hb => ?_, fun w R i _ hi => ?_⟩
  · rw [pack_getD _ hi, packByte_getMsbD _ _ _ hb, unpack_testBit]
    by_cases hbit : 8 * i + b < w
    · rw [show w - 1 - (w - 1 - (8 * i + b)) = 8 * i + b by omega]
      simp [hbit, show w - 1 - (8 * i + b) < w by omega]
    · simp [hbit]
  · rw [pack_getD R hi, packByte_eq_shift w R hi]

end Sys2Proof.Machine
end

section
/-! ENCODE (R121), and what SYND and DECODE find after it (R122): the ECC just written is the remainder of the message,
so the remainder of the received word is 0. -/

namespace Sys2Proof.Machine

section Encode

variable {s : State}

/-- The divider of a derived code is the one of its generator polynomial (R30, R91). -/
theorem CodeOk.divider_eq (h : CodeOk s) : s.divider = dividerOf s.gen := by
  rw [State.divider, dividerOf, h.e_eq, h.mod8_eq, h.e_eq]

theorem CodeOk.two_le_gen (h : CodeOk s) : 2 ≤ s.gen :=
  (Nat.le_log2 h.gen_ne).1 (h.e_eq ▸ h.e_pos)

/-- The remainder of the message fits the E bits of the ECC. -/
theorem CodeOk.remainder_lt (h : CodeOk s) : s.divider.remainder s.k.toNat s.msg < 2 ^ s.ebits.toNat := by
  rw [h.divider_eq, h.e_eq]
  exact Machine.remainder_lt h.two_le_gen _ _

/-- The state that `ENCODE` leaves, before the response is written (R121). -/
def State.encoded (s : State) : State :=
  (s.storeEcc (s.divider.remainder s.k.toNat s.msg)).setStage .idle

theorem encodeBody_of_code (hc : s.cfgstate = .code) : encodeBody s = .ok 0 s.encoded := if_neg (not_not.2 hc)

theorem encodeBody_of_not_code (hc : s.cfgstate ≠ .code) : encodeBody s = .err .badSequence s := if_pos hc

theorem exec_encode_of_code (hc : s.cfgstate = .code) : exec .encode s = .next (s.encoded.report 0 0) :=
  exec_of_body_ok (encodeBody_of_code hc)

end Encode

/-- Settles O47. -/
theorem encodeWritesTheRemainder : Obligations.EncodeWritesTheRemainder := by
  refine ⟨⟨lowBitsZero_of_formatZ (i := .encode) fun x => by simp [decode, field_opcode],
    fun s hc => exec_of_body_err (i := .encode) (encodeBody_of_not_code hc)⟩, fun s hc hok ⟨_, hecc, _⟩ => ?_⟩
  have hrem : s.divider.remainder s.k.toNat s.msg = pmod (messagePoly s.k.toNat s.msg <<< s.ebits.toNat) s.gen := by
    rw [hok.divider_eq, hok.e_eq]
    exact remainderIsThePolynomialRemainder _ _ _ hok.two_le_gen
  refine ⟨_, exec_encode_of_code hc, rfl, fun j hj => ?_, fun j hlo hhi => ?_, fun a ha => ?_⟩
  · refine (bit_writeBytes_pack hecc _ _ (by omega)).trans ?_
    rw [hrem, decide_eq_true hj, Bool.true_and]
  · refine (bit_writeBytes_pack hecc _ _ (hok.eb_eq ▸ hhi)).trans ?_
    rw [decide_eq_false (Nat.not_lt.2 hlo), Bool.false_and]
  · exact (read_writeBytes_pack hecc _ _ a).trans (if_neg (Nat.not_lt.2 (hok.eb_eq ▸ ha)))

section Clean

variable {s : State}

/-- A remainder of 0 has only zero syndromes (R128). -/
theorem syndromeAt_zero (F : GfTables) (e i : Nat) : syndromeAt F e 0 i = 0 := by
  simp [syndromeAt]

theorem allZero_syndromes_zero (F : GfTables) (e t : Nat) : allZero (syndromes F e t 0) = true := by
  simp [allZero, syndromes, syndromeAt_zero]

/-- The word received when the ECC is the one of the message has remainder 0. -/
theorem State.receivedRem_encoded (hok : CodeOk s) (hecc : s.ecc.wf = true) :
    (s.encoded.report 0 0).receivedRem = 0 := by
  have hunpack := unpack_writeBytes_pack hecc hok.remainder_lt
  exact (congrArg (s.divider.remainder s.k.toNat s.msg ^^^ ·) hunpack).trans (Nat.xor_self _)

/-- `SYND` on a word of remainder 0 sets `SYNZ` (R129). -/
theorem syndBody_synz_of_receivedRem (h : s.receivedRem = 0) : (syndBody s).synz = true := by
  rw [syndBody_synz, h]
  exact allZero_syndromes_zero _ _ _

theorem exec_synd_of_code (hc : s.cfgstate = .code) :
    exec .synd s = .next ((syndBody s).report 0 (syndBody s).flags) :=
  exec_of_body_ok ((s.inCode_eq none _).trans (if_pos ⟨hc, nofun⟩))

/-- `DECODE` on a word of remainder 0 ends after its first stage (R138). -/
theorem exec_decode_of_synz (hc : s.cfgstate = .code) (hz : (syndBody s).synz = true) :
    exec .decode s = .next (((syndBody s).setStage .done).report 0 0) :=
  exec_of_body_ok ((s.inCode_eq none _).trans ((if_pos ⟨hc, nofun⟩).trans (if_pos hz)))

end Clean

/-- Settles O48. -/
theorem encodeThenDecodeIsClean : Obligations.EncodeThenDecodeIsClean := by
  intro s hc hok ⟨_, hecc, _⟩
  have hz := syndBody_synz_of_receivedRem (State.receivedRem_encoded hok hecc)
  refine ⟨_, _, _, exec_encode_of_code hc, exec_synd_of_code hc, ?_, exec_decode_of_synz hc hz, rfl, rfl, rfl, rfl, rfl,
    hz, rfl⟩
  rw [State.report_rsp, State.flags, if_pos hz]

end Sys2Proof.Machine
end

section
/-! The stage commands one by one (R124, R129, R132, R138): when each refuses, what each commits, and what `STAGE` is
afterwards. -/

namespace Sys2Proof.Machine

/-! ## Preconditions -/

section Preconditions

variable {s : State}

theorem State.inCode_of_not_code (hc : s.cfgstate ≠ .code) (required : Option Stage) (body : Result) :
    s.inCode required body = .err .badSequence s := if_pos hc

theorem State.inCode_none (hc : s.cfgstate = .code) (body : Result) : s.inCode none body = body :=
  if_neg (not_not.2 hc)

theorem State.inCode_of_stage {st : Stage} (hc : s.cfgstate = .code) (hst : s.stage = st) (body : Result) :
    s.inCode (some st) body = body := by
  rw [State.inCode_eq, if_pos ⟨hc, fun _ h => hst.trans (Option.some.inj h)⟩]

/-- A stage command out of sequence (R124, R151). -/
theorem State.inCode_of_out_of_sequence {st : Stage} (h : s.cfgstate ≠ .code ∨ s.stage ≠ st) (body : Result) :
    s.inCode (some st) body = .err .badSequence s := by
  rw [State.inCode_eq, if_neg]
  rintro ⟨hc, hst⟩
  exact h.elim (fun h => h hc) (fun h => h (hst st rfl))

/-- `BMSOLVE`, `CHIEN` and `CORRECT` refuse in any state but the one they require. -/
theorem exec_of_out_of_sequence {i : Instr} {st : Stage} (hi : stageRequired i = some st)
    (h : s.cfgstate ≠ .code ∨ s.stage ≠ st) :
    exec i s = .next { s with rsp := response 6 0, lasterr := 6 } := by
  cases i with
  | bmsolve => cases hi; exact exec_of_body_err (i := .bmsolve) (s.inCode_of_out_of_sequence h _)
  | chien => cases hi; exact exec_of_body_err (i := .chien) (s.inCode_of_out_of_sequence h _)
  | correct => cases hi; exact exec_of_body_err (i := .correct) (s.inCode_of_out_of_sequence h _)
  | _ => cases hi

theorem exec_synd_of_not_code (hc : s.cfgstate ≠ .code) :
    exec .synd s = .next { s with rsp := response 6 0, lasterr := 6 } :=
  exec_of_body_err (i := .synd) (State.inCode_of_not_code hc none _)

theorem exec_decode_of_not_code (hc : s.cfgstate ≠ .code) :
    exec .decode s = .next { s with rsp := response 6 0, lasterr := 6 } :=
  exec_of_body_err (i := .decode) (State.inCode_of_not_code hc none _)

end Preconditions

/-! ## What each stage commits -/

section Commits

variable {s : State}

theorem exec_bmsolve_of_le (hc : s.cfgstate = .code) (hst : s.stage = .synd) (hl : s.solve.l ≤ s.t.toNat) :
    exec .bmsolve s =
      .next (((s.storeLocator s.solve).setStage .locator).report 0 (BitVec.ofNat 16 s.solve.l)) :=
  exec_of_body_ok ((State.inCode_of_stage hc hst _).trans (if_neg (Nat.not_lt.2 hl)))

theorem exec_bmsolve_of_gt (hc : s.cfgstate = .code) (hst : s.stage = .synd) (hl : s.t.toNat < s.solve.l) :
    exec .bmsolve s = .next (((s.storeLocator s.solve).setStage .failed).report 4 0) :=
  exec_of_body_err (i := .bmsolve) ((State.inCode_of_stage hc hst _).trans (if_pos hl))

theorem exec_chien_of_eq (hc : s.cfgstate = .code) (hst : s.stage = .locator)
    (hn : s.search.length = s.elpdeg.toNat) :
    exec .chien s =
      .next (((s.storeRoots s.search).setStage .roots).report 0 (BitVec.ofNat 16 s.search.length)) :=
  exec_of_body_ok ((State.inCode_of_stage hc hst _).trans (if_neg (not_not.2 hn)))

theorem exec_chien_of_ne (hc : s.cfgstate = .code) (hst : s.stage = .locator)
    (hn : s.search.length ≠ s.elpdeg.toNat) :
    exec .chien s = .next (((s.storeRoots s.search).setStage .failed).report 4 0) :=
  exec_of_body_err (i := .chien) ((State.inCode_of_stage hc hst _).trans (if_pos hn))

theorem exec_correct_of_stage (hc : s.cfgstate = .code) (hst : s.stage = .roots) :
    exec .correct s = .next ((correctBody s).report 0 s.nerr) :=
  exec_of_body_ok (State.inCode_of_stage hc hst _)

/-- `DECODE` in a derived code ends as its body ends. -/
theorem exec_decode_of_code (hc : s.cfgstate = .code) : exec .decode s = (decodeBody s).finish :=
  (exec_eq .decode s).trans (congrArg Result.finish (State.inCode_none hc _))

end Commits

/-! ## STAGE -/

/-- What a result does to `STAGE`: success, `UncorrectableError` and every other error (R124). -/
theorem Effect.stage_cases {i : Instr} {s : State} {r : Result} (he : Effect s i r) :
    (r.code = 0 ∧ r.state.stage = stageAfter i s.stage) ∨
      (r.code = 4 ∧ (i = .bmsolve ∨ i = .chien ∨ i = .decode) ∧ r.state.stage = .failed) ∨
      (r.code ≠ 0 ∧ r.code ≠ 4 ∧ r.state.stage = s.stage) := by
  cases he with
  | refuse i e hne => exact .inr (.inr ⟨e.code_ne_zero, fun h => hne ((Err.code_eq_four e).1 h), rfl⟩)
  | noLocator => exact .inr (.inl ⟨rfl, .inl rfl, rfl⟩)
  | noRoots => exact .inr (.inl ⟨rfl, .inr (.inl rfl), rfl⟩)
  | decodeNoLocator => exact .inr (.inl ⟨rfl, .inr (.inr rfl), rfl⟩)
  | decodeNoRoots => exact .inr (.inl ⟨rfl, .inr (.inr rfl), rfl⟩)
  | gfCompute i rd v hc ho => exact .inl ⟨rfl, by cases ho <;> rfl⟩
  | _ => exact .inl ⟨rfl, rfl⟩

/-- A stage command in the state it requires succeeds or finds the word uncorrectable. -/
theorem exec_in_sequence_code {i : Instr} {s t : State} {st : Stage} (hi : stageRequired i = some st)
    (hc : s.cfgstate = .code) (hst : s.stage = st) (h : exec i s = .next t) : t.lasterr = 0 ∨ t.lasterr = 4 := by
  cases i with
  | bmsolve =>
    cases hi
    obtain hl | hl := Nat.lt_or_ge s.t.toNat s.solve.l
    · rw [exec_bmsolve_of_gt hc hst hl] at h; cases h; exact .inr rfl
    · rw [exec_bmsolve_of_le hc hst hl] at h; cases h; exact .inl rfl
  | chien =>
    cases hi
    obtain hn | hn := eq_or_ne s.search.length s.elpdeg.toNat
    · rw [exec_chien_of_eq hc hst hn] at h; cases h; exact .inl rfl
    · rw [exec_chien_of_ne hc hst hn] at h; cases h; exact .inr rfl
  | correct => cases hi; rw [exec_correct_of_stage hc hst] at h; cases h; exact .inl rfl
  | _ => cases hi

/-- What `DECODE` leaves in a derived code: success with `NERR` as data, or `UncorrectableError`; `MSG` changes on
success only (R138, R139). -/
theorem exec_decode_cases {s : State} (hc : s.cfgstate = .code) :
    ∃ t, exec .decode s = .next t ∧
      ((t.lasterr = 0 ∧ t.stage = .done ∧ t.rsp = response 0 t.nerr) ∨
        (t.lasterr = 4 ∧ t.stage = .failed ∧ t.rsp = response 4 0 ∧ t.msg = s.msg)) := by
  rw [exec_decode_of_code hc]
  obtain ⟨-, h⟩ | ⟨-, -, h⟩ | ⟨-, -, -, h⟩ | ⟨-, -, -, h⟩ := decodeBody_cases s <;> rw [h]
  · exact ⟨_, rfl, .inl ⟨rfl, rfl, rfl⟩⟩
  · exact ⟨_, rfl, .inr ⟨rfl, rfl, rfl, rfl⟩⟩
  · exact ⟨_, rfl, .inr ⟨rfl, rfl, rfl, rfl⟩⟩
  · exact ⟨_, rfl, .inl ⟨rfl, rfl, rfl⟩⟩

/-- Every code of a response fixes what has become of `STAGE` (R124). -/
theorem exec_stage {i : Instr} {s t : State} (h : exec i s = .next t) :
    (t.lasterr = 0 → t.stage = stageAfter i s.stage) ∧
      (t.lasterr = 4 → (i = .bmsolve ∨ i = .chien ∨ i = .decode) ∧ t.stage = .failed) ∧
      (t.lasterr ≠ 0 → t.lasterr ≠ 4 → t.stage = s.stage) := by
  obtain ⟨r, he, rfl⟩ := exec_effect h
  rw [State.report_lasterr, State.report_stage]
  obtain ⟨h0, hs⟩ | ⟨h4, hi, hs⟩ | ⟨hne0, hne4, hs⟩ := he.stage_cases
  · exact ⟨fun _ => hs, fun h4 => absurd (h0.symm.trans h4) (by decide), fun hne => absurd h0 hne⟩
  · exact ⟨fun h0 => absurd (h4.symm.trans h0) (by decide), fun _ => ⟨hi, hs⟩, fun _ hne => absurd h4 hne⟩
  · exact ⟨fun h0 => absurd h0 hne0, fun h4 => absurd h4 hne4, fun _ _ => hs⟩

/-- Settles O15. -/
theorem stageMachine : Obligations.StageMachine := by
  refine ⟨fun s t h => by cases h; rfl, fun i s t h => ?_⟩
  obtain ⟨hsuccess, hfailed, hrefused⟩ := exec_stage h
  refine ⟨hsuccess, hfailed, hrefused, fun st hi hst => ?_, ?_, ?_,
    fun hc st hi hst => exec_in_sequence_code hi hc hst h⟩
  · rw [exec_of_out_of_sequence hi (.inr hst)] at h
    cases h; rfl
  · rintro hc rfl
    rw [exec_synd_of_code hc] at h
    cases h; rfl
  · rintro hc rfl
    obtain ⟨t', h', hcases⟩ := exec_decode_cases hc
    obtain rfl : t' = t := by rw [h'] at h; cases h; rfl
    exact hcases.imp And.left And.left

/-- Settles O58. -/
theorem decodeIsAllOrNothing : Obligations.DecodeIsAllOrNothing := by
  intro s hc
  obtain ⟨t, h, hcases⟩ := exec_decode_cases hc
  refine ⟨t, h, ?_, hcases⟩
  obtain ⟨r, he, rfl⟩ := exec_effect h
  cases he with
  | gfCompute i rd v _ ho => cases ho
  | _ => rfl

/-! ## SYND -/

@[simp] theorem syndromes_length (F : GfTables) (e t rem : Nat) : (syndromes F e t rem).length = 2 * t := by
  simp [syndromes]

theorem syndromes_getD (F : GfTables) (e t rem : Nat) {i : Nat} (hi : i < 2 * t) :
    (syndromes F e t rem).getD i 0 = syndromeAt F e rem (i + 1) := by
  rw [List.getD_eq_getElem _ _ (by simpa using hi)]
  simp [syndromes]

/-- `SYNZ` is set exactly when every entry is 0 (R20). -/
theorem allZero_iff (syn : List Half) : allZero syn = true ↔ ∀ i, i < syn.length → syn.getD i 0 = 0 := by
  rw [allZero, List.all_eq_true]
  constructor
  · intro h i hi
    rw [List.getD_eq_getElem _ _ hi]
    exact eq_of_beq (h _ (List.getElem_mem hi))
  · intro h v hv
    obtain ⟨i, hi, rfl⟩ := List.getElem_of_mem hv
    rw [← List.getD_eq_getElem _ 0 hi, h i hi]
    rfl

/-- The scratch copy of the ECC that `SYND` makes: the E bits, then padding 0 (R129). -/
theorem syndBody_eccs_bit {s : State} (h : s.eccs.wf = true) {j : Nat} (hj : j < 8 * ((s.ebits.toNat + 7) / 8)) :
    (syndBody s).eccs.bit j = (decide (j < s.ebits.toNat) && s.ecc.bit j) := by
  rw [syndBody_eccs, bit_writeBytes_pack h _ _ hj, unpack_testBit]
  by_cases hlt : j < s.ebits.toNat
  · rw [show s.ebits.toNat - 1 - (s.ebits.toNat - 1 - j) = j by omega]
    simp [hlt, show s.ebits.toNat - 1 - j < s.ebits.toNat by omega]
  · simp [hlt]

/-- Settles O49. -/
theorem syndComputesTheSyndromes : Obligations.SyndComputesTheSyndromes := by
  refine ⟨⟨lowBitsZero_of_formatZ (i := .synd) fun x => by simp [decode, field_opcode],
    fun s hc => exec_synd_of_not_code hc⟩, fun s hc ⟨_, _, heccs⟩ => ?_⟩
  have hzero := allZero_iff (syndBody s).syn
  rw [show (syndBody s).syn.length = 2 * s.t.toNat from syndromes_length _ _ _ _] at hzero
  refine ⟨_, exec_synd_of_code hc, rfl, syndromes_length _ _ _ _, fun i hi => syndromes_getD _ _ _ _ hi, hzero,
    fun j hj => syndBody_eccs_bit heccs hj, fun a ha => ?_⟩
  exact (read_writeBytes_pack heccs _ _ a).trans (if_neg (Nat.not_lt.2 ha))

/-! ## BMSOLVE -/

/-- Settles O52. -/
theorem bmsolveRunsTheSolver : Obligations.BmsolveRunsTheSolver := by
  refine ⟨⟨lowBitsZero_of_formatZ (i := .bmsolve) fun x => by simp [decode, field_opcode],
    fun s h => exec_of_out_of_sequence rfl h⟩, fun s r hc hst hr => ?_⟩
  obtain rfl : r = s.solve := hr
  exact ⟨exec_bmsolve_of_le hc hst, exec_bmsolve_of_gt hc hst⟩

/-- An iteration never lowers the degree counter: a change sets it to a greater value (R131 (e)). -/
theorem bmIter_l_le (F : GfTables) (syn : List Half) (t i : Nat) (st : BmVars) : st.l ≤ (bmIter F syn t i st).l := by
  have hupdate : st.l ≤ (bmUpdate F i st).l := by
    unfold bmUpdate
    dsimp only
    split
    next hgt => exact hgt.le
    · exact le_rfl
  have hst : st.l ≤ (if st.d ≠ 0 then bmUpdate F i st else st).l := by
    split
    · exact hupdate
    · exact le_rfl
  unfold bmIter
  dsimp only
  split
  · exact hst
  · exact hst

/-- Settles O53. -/
theorem solverBounds : Obligations.SolverBounds := fun F syn t =>
  have h := bm_inv F syn t
  ⟨h.pd_ne, h.l_le le_rfl, h.c_len, h.c_zero, h.c_above, bmIter_l_le F syn t⟩

/-- While all syndromes are zero the solver stands at its initial values (R131 (g)). -/
theorem bm_of_zero_syndromes (F : GfTables) {syn : List Half} (t : Nat) (h : ∀ i, syn.getD i 0 = 0) :
    bm F syn t = bmInit syn t := by
  have hd : (bmInit syn t).d = 0 := h 0
  have hnext (i : Nat) : bmDiscrepancy F syn i (bmInit syn t) = 0 := h (2 * i + 2)
  have hiter (i : Nat) : bmIter F syn t i (bmInit syn t) = bmInit syn t := by
    unfold bmIter
    rw [if_neg (not_not.2 hd)]
    dsimp only
    rw [hnext]
    split
    · rw [← hd]
    · rfl
  exact List.foldlRecOn _ _ (motive := fun st => st = bmInit syn t) rfl fun st hst i _ => by
    rw [hst, hiter, ite_self]

/-- Settles O54. -/
theorem solverOnZeroSyndromes : Obligations.SolverOnZeroSyndromes := fun F syn t h => by
  rw [bm_of_zero_syndromes F t h]
  exact ⟨rfl, rfl⟩

end Sys2Proof.Machine
end

section
/-! The search and the correction (R133 to R137): the positions found are the roots, and a bit is flipped exactly when
its position is listed. -/

namespace Sys2Proof.Machine

/-! ## CHIEN -/

theorem chienRoots_length (F : GfTables) (c : List Half) (l : Nat) :
    (chienRoots F c l).length = ((List.range' 1 F.n).filter fun i => locatorAt F c l i == 0).length :=
  List.length_map _

/-- The positions found are those whose root α^(n - p) the locator has (R133). -/
theorem mem_chienRoots {F : GfTables} {c : List Half} {l p : Nat} :
    p ∈ chienRoots F c l ↔ p < F.n ∧ locatorAt F c l (F.n - p) = 0 := by
  refine ⟨fun hp => ⟨chienRoots_lt hp, ?_⟩, fun ⟨hlt, h0⟩ => ?_⟩
  · simp only [chienRoots, List.mem_map, List.mem_filter, List.mem_range'_1, beq_iff_eq] at hp
    obtain ⟨i, ⟨hi, h0⟩, rfl⟩ := hp
    rwa [show F.n - (F.n - i) = i by omega]
  · simp only [chienRoots, List.mem_map, List.mem_filter, List.mem_range'_1, beq_iff_eq]
    exact ⟨F.n - p, ⟨by omega, h0⟩, by omega⟩

/-- `LOC` after a search that found at most t positions lists them, each in its 16 bits. -/
theorem State.locEntries_search_getD {s : State} (h : s.search.length ≤ s.t.toNat) {i : Nat}
    (hi : i < s.search.length) : ((locEntries s.t.toNat s.search).getD i 0).toNat = s.search[i] := by
  have hlt : s.search[i] < s.n.toNat := chienRoots_lt (List.getElem_mem hi)
  have := s.n.isLt
  rw [locEntries_getD h hi, BitVec.toNat_ofNat]
  exact Nat.mod_eq_of_lt (by omega)

/-- Settles O55. -/
theorem chienFindsExactlyTheRoots : Obligations.ChienFindsExactlyTheRoots := by
  refine ⟨⟨lowBitsZero_of_formatZ (i := .chien) fun x => by simp [decode, field_opcode],
    fun s h => exec_of_out_of_sequence rfl h⟩, fun s cnt hc hst hcnt => ?_⟩
  obtain rfl : cnt = s.search.length := hcnt.trans (chienRoots_length _ _ _).symm
  have hloc : s.search.length ≤ s.t.toNat →
      (∀ p, p < s.n.toNat → (locatorAt s.tables s.elp s.elpdeg.toNat (s.n.toNat - p) = 0 ↔
        ∃ idx, idx < s.search.length ∧ ((locEntries s.t.toNat s.search).getD idx 0).toNat = p)) ∧
      (∀ i j, i < j → j < s.search.length →
        ((locEntries s.t.toNat s.search).getD j 0).toNat < ((locEntries s.t.toNat s.search).getD i 0).toNat) := by
    intro hle
    refine ⟨fun p hp => ?_, fun i j hij hj => ?_⟩
    · have hmem : p ∈ s.search ↔ p < s.n.toNat ∧ locatorAt s.tables s.elp s.elpdeg.toNat (s.n.toNat - p) = 0 :=
        mem_chienRoots
      refine (and_iff_right hp).symm.trans (hmem.symm.trans (List.mem_iff_getElem.trans (exists_congr fun idx => ?_)))
      exact ⟨fun ⟨hi, h⟩ => ⟨hi, (State.locEntries_search_getD hle hi).trans h⟩,
        fun ⟨hi, h⟩ => ⟨hi, (State.locEntries_search_getD hle hi).symm.trans h⟩⟩
    · rw [State.locEntries_search_getD hle hj, State.locEntries_search_getD hle (hij.trans hj)]
      exact List.pairwise_iff_getElem.1 (chienRoots_descending _ _ _) i j _ _ hij
  obtain hn | hn := eq_or_ne s.search.length s.elpdeg.toNat
  · exact ⟨_, exec_chien_of_eq hc hst hn, fun _ => rfl, fun h => absurd hn h, hloc⟩
  · exact ⟨_, exec_chien_of_ne hc hst hn, fun h => absurd h hn, fun _ => rfl, hloc⟩

/-! ## CORRECT -/

/-- One position flips the message bit that stands there, if one does (R136). -/
theorem correctOne_msg_bit {k e p : Nat} {bufs : Memory × Memory} (h : bufs.1.wf = true) (j : Nat) :
    (correctOne k e bufs p).1.bit j = (bufs.1.bit j ^^ decide (j < k ∧ p = k + e - 1 - j)) := by
  unfold correctOne
  split
  · rw [decide_eq_false (by omega), Bool.xor_false]
  · split
    · rw [Memory.bit_flipBit _ _ _ h]
      congr 1
      rw [decide_eq_decide]
      omega
    · rw [decide_eq_false (by omega), Bool.xor_false]

/-- One position flips the bit of the scratch copy of the ECC that stands there, if one does (R136). -/
theorem correctOne_eccs_bit {k e p : Nat} {bufs : Memory × Memory} (h : bufs.2.wf = true) (j : Nat) :
    (correctOne k e bufs p).2.bit j = (bufs.2.bit j ^^ decide (j < e ∧ p = e - 1 - j)) := by
  unfold correctOne
  split
  · rw [decide_eq_false (by omega), Bool.xor_false]
  · split
    · rw [decide_eq_false (by omega), Bool.xor_false]
    · rw [Memory.bit_flipBit _ _ _ h]
      congr 1
      rw [decide_eq_decide]
      omega

/-- A position that stands in front of a list it is not in is listed once. -/
theorem xor_decide_mem_cons {c : Prop} [Decidable c] {p q : Nat} {ps : List Nat} (hp : p ∉ ps) (b : Bool) :
    ((b ^^ decide (c ∧ p = q)) ^^ decide (c ∧ q ∈ ps)) = (b ^^ decide (c ∧ q ∈ p :: ps)) := by
  by_cases hc : c
  · obtain rfl | hne := eq_or_ne p q
    · simp [hc, hp]
    · simp [hc, hne, hne.symm]
  · simp [hc]

/-- A list of distinct positions flips exactly the bits that stand at them (R136). -/
theorem foldl_correctOne_bits (k e : Nat) {ps : List Nat} (hps : ps.Nodup) {bufs : Memory × Memory}
    (h : bufs.1.wf = true ∧ bufs.2.wf = true) (j : Nat) :
    (ps.foldl (correctOne k e) bufs).1.bit j = (bufs.1.bit j ^^ decide (j < k ∧ k + e - 1 - j ∈ ps)) ∧
      (ps.foldl (correctOne k e) bufs).2.bit j = (bufs.2.bit j ^^ decide (j < e ∧ e - 1 - j ∈ ps)) := by
  induction ps generalizing bufs with
  | nil => simp
  | cons p ps ih =>
    obtain ⟨hp, hps⟩ := List.nodup_cons.1 hps
    obtain ⟨hmsg, heccs⟩ := ih hps (correctOne_wf k e p h)
    rw [List.foldl_cons, hmsg, heccs, correctOne_msg_bit h.1, correctOne_eccs_bit h.2]
    exact ⟨xor_decide_mem_cons hp _, xor_decide_mem_cons hp _⟩

/-- The positions `CORRECT` works through: `LOC[0..NERR-1]`. -/
def State.positions (s : State) : List Nat := (List.range s.nerr.toNat).map fun idx => (s.loc.getD idx 0).toNat

theorem State.mem_positions {s : State} {p : Nat} :
    p ∈ s.positions ↔ ∃ idx, idx < s.nerr.toNat ∧ (s.loc.getD idx 0).toNat = p := by
  simp only [State.positions, List.mem_map, List.mem_range]

theorem State.corrected_eq (s : State) :
    s.corrected = s.positions.foldl (correctOne s.k.toNat s.ebits.toNat) (s.msg, s.eccs) :=
  (List.foldl_map ..).symm

theorem State.positions_nodup {s : State}
    (h : ∀ i j, i < j → j < s.nerr.toNat → s.loc.getD i 0 ≠ s.loc.getD j 0) : s.positions.Nodup := by
  refine List.pairwise_map.2 ((List.pairwise_lt_range (n := s.nerr.toNat)).imp_of_mem fun {i j} _ hj hij heq => ?_)
  exact h i j hij (List.mem_range.1 hj) (BitVec.eq_of_toNat_eq heq)

/-- The bits of the corrected buffers (R137). -/
theorem State.corrected_bits {s : State} (hps : s.positions.Nodup) (hmsg : s.msg.wf = true) (heccs : s.eccs.wf = true)
    (j : Nat) :
    s.corrected.1.bit j = (s.msg.bit j ^^ decide (j < s.k.toNat ∧ s.k.toNat + s.ebits.toNat - 1 - j ∈ s.positions)) ∧
      s.corrected.2.bit j = (s.eccs.bit j ^^ decide (j < s.ebits.toNat ∧ s.ebits.toNat - 1 - j ∈ s.positions)) := by
  rw [s.corrected_eq]
  exact foldl_correctOne_bits _ _ hps ⟨hmsg, heccs⟩ j

/-- Settles O56. -/
theorem correctFlipsExactlyTheListedBits : Obligations.CorrectFlipsExactlyTheListedBits := by
  refine ⟨⟨lowBitsZero_of_formatZ (i := .correct) fun x => by simp [decode, field_opcode],
    fun s h => exec_of_out_of_sequence rfl h⟩, fun s hc hst ⟨hmsg, _, heccs⟩ hdistinct => ?_⟩
  have hbits := State.corrected_bits (State.positions_nodup hdistinct) hmsg heccs
  simp only [← State.mem_positions]
  refine ⟨_, exec_correct_of_stage hc hst, rfl, fun j hj => ?_, fun j hj => ?_, fun j hj => ?_, fun j hj => ?_⟩
  · exact (hbits j).1.trans (by rw [decide_eq_true hj, Bool.xor_true])
  · exact (hbits j).1.trans (by rw [decide_eq_false hj, Bool.xor_false])
  · exact (hbits j).2.trans (by rw [decide_eq_true hj, Bool.xor_true])
  · exact (hbits j).2.trans (by rw [decide_eq_false hj, Bool.xor_false])

end Sys2Proof.Machine
end

section
/-! DECODE and its four stages (R138): on every path both make the same commits, each of which overwrites the response
before. -/

namespace Sys2Proof.Machine

section Stages

variable {s : State}

/-- A command that succeeds lets the next one run. -/
theorem runUntilError_of_ok {i : Instr} {rest : List Instr} {u : State} {d : Half}
    (h : exec i s = .next (u.report 0 d)) : runUntilError (i :: rest) s = runUntilError rest (u.report 0 d) := by
  rw [runUntilError, h]
  rfl

/-- A command that finds the word uncorrectable is the last one. -/
theorem runUntilError_of_uncorrectable {i : Instr} {rest : List Instr} {u : State}
    (h : exec i s = .next (u.report 4 0)) : runUntilError (i :: rest) s = .next (u.report 4 0) := by
  rw [runUntilError, h]
  rfl

/-- States that differ in the response only. -/
theorem SameVisible.of_report (s : State) (c c' : BitVec 8) (d d' : Half) :
    SameVisible (s.report c d) (s.report c' d') := ⟨rfl, fun _ _ => rfl⟩

/-- The locator 1 has no root: nothing is found. -/
theorem chienRoots_initialLocator {m P : Nat} {F : GfTables} (h : TablesOk m P F) (n : Nat) :
    chienRoots F (1 :: List.replicate n 0) 0 = [] := by
  have hone (i : Nat) : locatorAt F (1 :: List.replicate n 0) 0 i = 1 := by
    show (0 : Half) ^^^ F.mul 1 (F.pow (i * 0)) = 1
    rw [h.one_mul (a := F.pow (i * 0)) (h.elem_pow _), Nat.mul_zero, h.pow_zero]
    rfl
  refine List.eq_nil_iff_forall_not_mem.2 fun p hp => ?_
  have h0 := (mem_chienRoots.1 hp).2
  rw [hone] at h0
  exact absurd h0 (by decide)

/-- The syndromes that `SYND` found to be zero are zero at every index. -/
theorem syndBody_syn_getD (hz : (syndBody s).synz = true) (i : Nat) : (syndBody s).syn.getD i 0 = 0 := by
  obtain hi | hi := Nat.lt_or_ge i (syndBody s).syn.length
  · exact (allZero_iff _).1 hz i hi
  · exact List.getD_eq_default _ _ hi

/-- After zero syndromes the solver leaves the locator as `SYND` has set it. -/
theorem State.decodeLocator_of_synz (hz : (syndBody s).synz = true) :
    s.decodeLocator =
      { syndBody s with bms := (bmInit (syndBody s).syn s.t.toNat).scratch, stage := .locator } := by
  have hsolve : (syndBody s).solve = bmInit (syndBody s).syn s.t.toNat :=
    bm_of_zero_syndromes _ _ (syndBody_syn_getD hz)
  rw [State.decodeLocator, hsolve]
  rfl

/-- And the search finds nothing. -/
theorem State.decodeRoots_of_synz (hf : FieldOk s) (hz : (syndBody s).synz = true) :
    s.decodeRoots =
      { syndBody s with
        bms := (bmInit (syndBody s).syn s.t.toNat).scratch, loc := locEntries s.t.toNat [], stage := .roots } := by
  have hsearch : s.decodeLocator.search = [] := by
    rw [State.decodeLocator_of_synz hz]
    exact chienRoots_initialLocator hf.tables _
  rw [State.decodeRoots, hsearch, State.decodeLocator_of_synz hz]
  rfl

/-! The stages one after the other, each on the state the one before has reported. -/

theorem exec_bmsolve_after_synd (hc : s.cfgstate = .code) (hl : (syndBody s).solve.l ≤ s.t.toNat) (d : Half) :
    exec .bmsolve ((syndBody s).report 0 d) =
      .next (s.decodeLocator.report 0 (BitVec.ofNat 16 (syndBody s).solve.l)) :=
  exec_bmsolve_of_le (s := (syndBody s).report 0 d) hc rfl hl

theorem exec_chien_after_bmsolve (hc : s.cfgstate = .code)
    (hn : s.decodeLocator.search.length = s.decodeLocator.elpdeg.toNat) (d : Half) :
    exec .chien (s.decodeLocator.report 0 d) =
      .next (s.decodeRoots.report 0 (BitVec.ofNat 16 s.decodeLocator.search.length)) :=
  exec_chien_of_eq (s := s.decodeLocator.report 0 d) hc rfl hn

theorem exec_correct_after_chien (hc : s.cfgstate = .code) (d : Half) :
    exec .correct (s.decodeRoots.report 0 d) = .next ((correctBody s.decodeRoots).report 0 s.decodeRoots.nerr) :=
  exec_correct_of_stage (s := s.decodeRoots.report 0 d) hc rfl

/-- The four stages when none fails. -/
theorem stages_of_success (hc : s.cfgstate = .code) (hl : (syndBody s).solve.l ≤ s.t.toNat)
    (hn : s.decodeLocator.search.length = s.decodeLocator.elpdeg.toNat) :
    runUntilError [.synd, .bmsolve, .chien, .correct] s =
      .next ((correctBody s.decodeRoots).report 0 s.decodeRoots.nerr) :=
  (runUntilError_of_ok (exec_synd_of_code hc)).trans <|
    (runUntilError_of_ok (exec_bmsolve_after_synd hc hl _)).trans <|
      (runUntilError_of_ok (exec_chien_after_bmsolve hc hn _)).trans <|
        runUntilError_of_ok (exec_correct_after_chien hc _)

/-- The four stages when the solver fails. -/
theorem stages_of_no_locator (hc : s.cfgstate = .code) (hl : s.t.toNat < (syndBody s).solve.l) :
    runUntilError [.synd, .bmsolve, .chien, .correct] s =
      .next ((((syndBody s).storeLocator (syndBody s).solve).setStage .failed).report 4 0) :=
  (runUntilError_of_ok (exec_synd_of_code hc)).trans <|
    runUntilError_of_uncorrectable (exec_bmsolve_of_gt (s := (syndBody s).report 0 (syndBody s).flags) hc rfl hl)

/-- The four stages when the root count does not match. -/
theorem stages_of_no_roots (hc : s.cfgstate = .code) (hl : (syndBody s).solve.l ≤ s.t.toNat)
    (hn : s.decodeLocator.search.length ≠ s.decodeLocator.elpdeg.toNat) :
    runUntilError [.synd, .bmsolve, .chien, .correct] s =
      .next (((s.decodeLocator.storeRoots s.decodeLocator.search).setStage .failed).report 4 0) :=
  (runUntilError_of_ok (exec_synd_of_code hc)).trans <|
    (runUntilError_of_ok (exec_bmsolve_after_synd hc hl _)).trans <|
      runUntilError_of_uncorrectable (exec_chien_of_ne
        (s := s.decodeLocator.report 0 (BitVec.ofNat 16 (syndBody s).solve.l)) hc rfl hn)

/-- After zero syndromes the later stages find no error and change nothing the host can see. -/
theorem stages_of_synz (hc : s.cfgstate = .code) (hf : FieldOk s) (hz : (syndBody s).synz = true) :
    ∃ u, runUntilError [.synd, .bmsolve, .chien, .correct] s = .next u ∧ u.lasterr = 0 ∧
      SameVisible (((syndBody s).setStage .done).report 0 0) u := by
  have hsolve : (syndBody s).solve.l = 0 :=
    congrArg BmVars.l (bm_of_zero_syndromes _ _ (syndBody_syn_getD hz))
  have hsearch : s.decodeLocator.search.length = s.decodeLocator.elpdeg.toNat := by
    rw [State.decodeLocator_of_synz hz]
    exact congrArg List.length (chienRoots_initialLocator hf.tables _)
  refine ⟨_, stages_of_success hc (hsolve.le.trans (Nat.zero_le _)) hsearch, rfl, ?_, fun idx h => ?_⟩
  · rw [State.decodeRoots_of_synz hf hz]
    rfl
  · exact absurd h (Nat.not_lt_zero idx)

end Stages

/-- Settles O57: on the path without errors by `stages_of_synz`, on the others both make the same commits. -/
theorem decodeIsTheFourStages : Obligations.DecodeIsTheFourStages := by
  refine ⟨⟨lowBitsZero_of_formatZ (i := .decode) fun x => by simp [decode, field_opcode],
    fun s hc => exec_decode_of_not_code hc⟩, fun s hc hf => ?_⟩
  rw [exec_decode_of_code hc]
  obtain ⟨hz, h⟩ | ⟨-, hl, h⟩ | ⟨-, hl, hn, h⟩ | ⟨-, hl, hn, h⟩ := decodeBody_cases s <;> rw [h]
  · obtain ⟨u, hrun, hu, hsame⟩ := stages_of_synz hc hf hz
    exact ⟨_, u, rfl, hrun, hsame, .inl ⟨hu, rfl, rfl, rfl⟩⟩
  · exact ⟨_, _, rfl, stages_of_no_locator hc hl, .of_report _ _ _ _ _, .inr ⟨rfl, rfl, rfl, rfl⟩⟩
  · exact ⟨_, _, rfl, stages_of_no_roots hc hl hn, .of_report _ _ _ _ _, .inr ⟨rfl, rfl, rfl, rfl⟩⟩
  · exact ⟨_, _, rfl, stages_of_success hc hl hn, .of_report _ _ _ _ _, .inl ⟨rfl, rfl, rfl, rfl⟩⟩

end Sys2Proof.Machine
end

section
/-! The syndromes as sums of powers (R127), and the square law of R128 (b). -/

namespace Sys2Proof.Machine

section Syndromes

variable {m P : Nat} {F : GfTables}

@[simp] theorem syndromeAt_no_terms (F : GfTables) (rem i : Nat) : syndromeAt F 0 rem i = 0 := rfl

/-- One more term of the remainder. -/
theorem syndromeAt_succ (F : GfTables) (e rem i : Nat) :
    syndromeAt F (e + 1) rem i =
      if rem.testBit e then syndromeAt F e rem i ^^^ F.pow (i * e) else syndromeAt F e rem i := by
  rw [syndromeAt, List.range_succ, List.foldl_append]
  rfl

theorem TablesOk.elem_gfPow (h : TablesOk m P F) (e : Nat) : F.elem (F.pow e) := h.elem_pow e

/-- A syndrome is an element (R128 (c)). -/
theorem TablesOk.elem_syndromeAt (h : TablesOk m P F) (e rem i : Nat) : F.elem (syndromeAt F e rem i) := by
  induction e with
  | zero => exact F.elem_zero
  | succ e ih =>
    rw [syndromeAt_succ]
    split
    · exact h.elem_gfAdd ih (h.elem_gfPow _)
    · exact ih

/-- Settles O51: squaring is additive, and it doubles the exponent of every term. -/
theorem evenSyndromesAreSquares : Obligations.EvenSyndromesAreSquares := by
  intro m P F e rem i h
  induction e with
  | zero => exact (F.zero_mul 0).symm
  | succ e ih =>
    rw [syndromeAt_succ, syndromeAt_succ]
    split
    · have hsquare := h.square_gfAdd (h.elem_syndromeAt e rem i) (h.elem_gfPow (i * e))
      rw [h.mul_pow, ← Nat.two_mul, ← Nat.mul_assoc, ← ih] at hsquare
      exact hsquare.symm
    · exact ih

end Syndromes

end Sys2Proof.Machine
end

section
/-! The field of the tables as a field of Mathlib (R12, R98), and what carries the model's elements into it. -/

namespace Sys2Proof.Machine

/-! ## The elements as a type -/

/-- The elements 0 .. n of the field (R12). -/
abbrev GfElem (F : GfTables) : Type := { a : Half // F.elem a }

section Construction

variable {m P : Nat} {F : GfTables}

theorem TablesOk.elem_one (h : TablesOk m P F) : F.elem 1 := h.pow_zero ▸ h.elem_gfPow 0

theorem TablesOk.mul_div_one (h : TablesOk m P F) {a : Half} (ha : F.elem a) (ha0 : a ≠ 0) :
    F.mul a (F.div 1 a) = 1 := by
  rw [F.mul_comm]
  exact h.div_mul h.elem_one ha ha0

/-- The ring of the elements under the model's addition and multiplication (R94, R96, R98). -/
abbrev TablesOk.commRing (h : TablesOk m P F) : CommRing (GfElem F) :=
  let _ : Zero (GfElem F) := ⟨⟨0, F.elem_zero⟩⟩
  let _ : Add (GfElem F) := ⟨fun a b => ⟨gfAdd a.1 b.1, h.elem_gfAdd a.2 b.2⟩⟩
  let _ : Neg (GfElem F) := ⟨id⟩
  { mul := fun a b => ⟨F.mul a.1 b.1, h.elem_mul _ _⟩
    one := ⟨1, h.elem_one⟩
    nsmul := nsmulRec
    zsmul := zsmulRec
    add_assoc a b c := Subtype.ext (BitVec.xor_assoc a.1 b.1 c.1)
    zero_add a := Subtype.ext (BitVec.zero_xor (x := a.1))
    add_zero a := Subtype.ext (BitVec.xor_zero (x := a.1))
    add_comm a b := Subtype.ext (BitVec.xor_comm a.1 b.1)
    neg_add_cancel a := Subtype.ext (BitVec.xor_self (x := a.1))
    mul_assoc a b c := Subtype.ext (h.mul_assoc a.2 b.2 c.2)
    mul_comm a b := Subtype.ext (F.mul_comm a.1 b.1)
    one_mul a := Subtype.ext (h.one_mul a.2)
    mul_one a := Subtype.ext ((F.mul_comm a.1 1).trans (h.one_mul a.2))
    zero_mul a := Subtype.ext (F.zero_mul a.1)
    mul_zero a := Subtype.ext (F.mul_zero a.1)
    left_distrib a b c := Subtype.ext (h.mul_gfAdd a.2 b.2 c.2)
    right_distrib a b c := Subtype.ext (by
      show F.mul (gfAdd a.1 b.1) c.1 = gfAdd (F.mul a.1 c.1) (F.mul b.1 c.1)
      rw [F.mul_comm, h.mul_gfAdd c.2 a.2 b.2, F.mul_comm a.1, F.mul_comm b.1]) }

/-- The field of the elements: the inverse is the model's quotient (R97). -/
abbrev TablesOk.field (h : TablesOk m P F) : Field (GfElem F) where
  toCommRing := h.commRing
  inv a := if a.1 = 0 then a else ⟨F.div 1 a.1, h.elem_div _ _⟩
  exists_pair_ne := ⟨⟨0, F.elem_zero⟩, ⟨1, h.elem_one⟩,
    fun heq => absurd (congrArg Subtype.val heq) (show (0 : Half) ≠ 1 by decide)⟩
  mul_inv_cancel a ha := by
    have ha0 : a.1 ≠ 0 := fun h0 => ha (Subtype.ext h0)
    rw [if_neg ha0]
    exact Subtype.ext (h.mul_div_one a.2 ha0)
  inv_zero := if_pos rfl
  nnqsmul := _
  qsmul := _

end Construction

/-! ## A field the elements are carried into -/

/-- The elements of the model's field carried into a field `K`: sums, products and distinctness are kept. -/
structure GfEmbedding (F : GfTables) (K : Type) [Field K] where
  toK : Half → K
  map_one : toK 1 = 1
  map_xor : ∀ {a b}, F.elem a → F.elem b → toK (a ^^^ b) = toK a + toK b
  map_mul : ∀ {a b}, F.elem a → F.elem b → toK (F.mul a b) = toK a * toK b
  inj : ∀ {a b}, F.elem a → F.elem b → toK a = toK b → a = b

/-- A built field has such an embedding, into a field of characteristic 2. -/
theorem TablesOk.exists_embedding {m P : Nat} {F : GfTables} (h : TablesOk m P F) :
    ∃ (K : Type) (_ : Field K) (_ : CharP K 2), Nonempty (GfEmbedding F K) := by
  let _ := h.field
  have htwo : (2 : GfElem F) = 0 := by
    rw [← one_add_one_eq_two]
    exact Subtype.ext (BitVec.xor_self (x := (1 : Half)))
  refine ⟨GfElem F, h.field, CharTwo.of_one_ne_zero_of_two_eq_zero one_ne_zero htwo, ⟨?_⟩⟩
  exact
    { toK := fun a => if ha : F.elem a then ⟨a, ha⟩ else 0
      map_one := dif_pos h.elem_one
      map_xor := fun {a b} ha hb => by
        rw [dif_pos ha, dif_pos hb, dif_pos (show F.elem (a ^^^ b) from h.elem_gfAdd ha hb)]
        rfl
      map_mul := fun {a b} ha hb => by
        rw [dif_pos ha, dif_pos hb, dif_pos (h.elem_mul a b)]
        rfl
      inj := fun {a b} ha hb heq => by
        rw [dif_pos ha, dif_pos hb] at heq
        exact congrArg Subtype.val heq }

namespace GfEmbedding

variable {m P : Nat} {F : GfTables} {K : Type} [Field K] (φ : GfEmbedding F K)

@[simp] theorem map_zero : φ.toK 0#16 = 0 := by
  have h : φ.toK (0#16 ^^^ 0#16) = φ.toK 0#16 + φ.toK 0#16 := φ.map_xor F.elem_zero F.elem_zero
  rw [BitVec.xor_self] at h
  exact left_eq_add.1 h

@[simp] theorem toK_one : φ.toK 1#16 = 1 := φ.map_one

theorem toK_eq_zero {a : Half} (ha : F.elem a) : φ.toK a = 0 ↔ a = 0 :=
  ⟨fun h => φ.inj ha F.elem_zero (h.trans φ.map_zero.symm), fun h => h ▸ φ.map_zero⟩

/-- The generator α of the field (R86). -/
def alpha : K := φ.toK (F.pow 1)

variable (h : TablesOk m P F)

include h in
theorem toK_pow (e : Nat) : φ.toK (F.pow e) = φ.alpha ^ e := by
  induction e with
  | zero => rw [h.pow_zero, φ.map_one, pow_zero]
  | succ e ih => rw [← h.mul_pow, φ.map_mul (h.elem_gfPow e) (h.elem_gfPow 1), ih, pow_succ]; rfl

include h in
theorem alpha_ne_zero : φ.alpha ≠ 0 := fun h0 =>
  h.pow_ne_zero 1 ((φ.toK_eq_zero (h.elem_gfPow 1)).1 h0)

include h in
/-- Powers of α agree exactly when their exponents agree modulo n. -/
theorem alpha_pow_eq_iff {i j : Nat} : φ.alpha ^ i = φ.alpha ^ j ↔ i % F.n = j % F.n := by
  rw [← φ.toK_pow h, ← φ.toK_pow h]
  refine ⟨fun heq => ?_, fun heq => by rw [GfTables.pow, heq, GfTables.pow]⟩
  rw [← h.logAt_pow, φ.inj (h.elem_gfPow i) (h.elem_gfPow j) heq, h.logAt_pow]

include h in
theorem alpha_pow_mod (i : Nat) : φ.alpha ^ (i % F.n) = φ.alpha ^ i :=
  (φ.alpha_pow_eq_iff h).2 (Nat.mod_mod _ _)

end GfEmbedding

end Sys2Proof.Machine
end

section
/-! Numbers read as polynomials over a field of characteristic 2 (R11): bitwise sums, shifts and carry-less products are
the operations of polynomials, and a syndrome is a value of the remainder. -/

namespace Sys2Proof.Machine

open Polynomial

section BitPoly

variable (K : Type) [Field K]

/-- The polynomial whose coefficients are the bits of a number (R11). -/
noncomputable def bitPoly (x : Nat) : K[X] := ∑ p ∈ Finset.range x.size, if x.testBit p then X ^ p else 0

theorem coeff_sum_bits (x e p : Nat) :
    (∑ p ∈ Finset.range e, if x.testBit p then (X : K[X]) ^ p else 0).coeff p =
      if p < e ∧ x.testBit p then 1 else 0 := by
  have hterm (q : Nat) : (if x.testBit q then (X : K[X]) ^ q else 0).coeff p =
      if q = p then (if x.testBit p then 1 else 0) else 0 := by
    obtain rfl | hne := eq_or_ne q p
    · split <;> simp
    · split <;> simp [coeff_X_pow, hne.symm]
  rw [finsetSum_coeff, Finset.sum_congr rfl fun q _ => hterm q, Finset.sum_ite_eq']
  simp only [Finset.mem_range, ite_and]

@[simp] theorem coeff_bitPoly (x p : Nat) : (bitPoly K x).coeff p = if x.testBit p then 1 else 0 := by
  rw [bitPoly, coeff_sum_bits]
  obtain hp | hp := Nat.lt_or_ge p x.size
  · simp only [hp, true_and]
  · rw [Nat.testBit_lt_two_pow ((Nat.lt_size_self x).trans_le (Nat.pow_le_pow_right (by decide) hp))]
    simp

/-- Below 2^e the first e bits are all. -/
theorem bitPoly_eq_sum {x e : Nat} (hx : x < 2 ^ e) :
    bitPoly K x = ∑ p ∈ Finset.range e, if x.testBit p then X ^ p else 0 := by
  ext p
  rw [coeff_bitPoly, coeff_sum_bits]
  obtain hp | hp := Nat.lt_or_ge p e
  · simp only [hp, true_and]
  · rw [Nat.testBit_lt_two_pow (hx.trans_le (Nat.pow_le_pow_right (by decide) hp))]
    simp

@[simp] theorem bitPoly_zero : bitPoly K 0 = 0 := by ext p; simp

theorem bitPoly_one : bitPoly K 1 = 1 := by
  ext p
  simp only [coeff_bitPoly, coeff_one, Nat.testBit_one_eq_true_iff_self_eq_zero]

theorem bitPoly_eq_zero {x : Nat} : bitPoly K x = 0 ↔ x = 0 := by
  refine ⟨fun h => Nat.eq_of_testBit_eq fun p => ?_, fun h => h ▸ bitPoly_zero K⟩
  have hp := congrArg (coeff · p) h
  simpa using hp

theorem degree_bitPoly_lt {x e : Nat} (hx : x < 2 ^ e) : (bitPoly K x).degree < e := by
  refine (degree_lt_iff_coeff_zero _ _).2 fun p hp => ?_
  rw [coeff_bitPoly, Nat.testBit_lt_two_pow (hx.trans_le (Nat.pow_le_pow_right (by decide) hp))]
  simp

theorem bitPoly_shiftLeft (x k : Nat) : bitPoly K (x <<< k) = bitPoly K x * X ^ k := by
  ext p
  rw [coeff_bitPoly, coeff_mul_X_pow', coeff_bitPoly, Nat.testBit_shiftLeft]
  by_cases hp : k ≤ p <;> simp [hp]

variable [CharP K 2]

theorem bitPoly_xor (x y : Nat) : bitPoly K (x ^^^ y) = bitPoly K x + bitPoly K y := by
  ext p
  rw [coeff_add, coeff_bitPoly, coeff_bitPoly, coeff_bitPoly, Nat.testBit_xor]
  cases x.testBit p <;> cases y.testBit p <;> simp [CharTwo.add_self_eq_zero]

theorem bitPoly_clmulPart (a b k : Nat) :
    bitPoly K (clmulPart a b k) = bitPoly K a * bitPoly K (clmulPart 1 b k) := by
  induction k with
  | zero => simp [clmulPart]
  | succ k ih =>
    rw [clmulPart_succ, clmulPart_succ]
    split
    · rw [bitPoly_xor, bitPoly_xor, ih, bitPoly_shiftLeft, bitPoly_shiftLeft, bitPoly_one, one_mul, mul_add]
    · exact ih

/-- The carry-less product is the product of polynomials (R89). -/
theorem bitPoly_clmul (a b : Nat) : bitPoly K (clmul a b) = bitPoly K a * bitPoly K b := by
  rw [clmul_eq, bitPoly_clmulPart, ← clmul_eq, clmul_one_left]

/-- At a root of g a polynomial and its remainder modulo g have the same value (R11). -/
theorem eval_bitPoly_pmod {β : K} {g : Nat} (hg : (bitPoly K g).eval β = 0) (a : Nat) :
    (bitPoly K (pmod a g)).eval β = (bitPoly K a).eval β := by
  suffices hloop : ∀ fuel a, (bitPoly K (pmodLoop fuel a g)).eval β = (bitPoly K a).eval β from hloop _ a
  intro fuel
  induction fuel with
  | zero => exact fun _ => rfl
  | succ fuel ih =>
    intro a
    rw [pmodLoop]
    split
    · rw [ih, bitPoly_xor, bitPoly_shiftLeft, eval_add, eval_mul, hg, zero_mul, add_zero]
    · rfl

/-- Squares: the value at β² is the square of the value at β, the coefficients being 0 and 1. -/
theorem eval_bitPoly_sq (β : K) (x : Nat) : (bitPoly K x).eval (β ^ 2) = (bitPoly K x).eval β ^ 2 := by
  rw [bitPoly, eval_finsetSum, eval_finsetSum, CharTwo.sum_sq]
  refine Finset.sum_congr rfl fun p _ => ?_
  split
  · simp only [eval_pow, eval_X]; ring
  · simp

end BitPoly

section Embedded

variable {m P : Nat} {F : GfTables} {K : Type} [Field K] (φ : GfEmbedding F K)

/-- A syndrome is the value of the remainder at the power of α (R127). -/
theorem GfEmbedding.toK_syndromeAt (h : TablesOk m P F) {e rem : Nat} (hrem : rem < 2 ^ e) (i : Nat) :
    φ.toK (syndromeAt F e rem i) = (bitPoly K rem).eval (φ.alpha ^ i) := by
  have hsum : ∀ e, φ.toK (syndromeAt F e rem i) =
      ∑ p ∈ Finset.range e, if rem.testBit p then (φ.alpha ^ i) ^ p else 0 := by
    intro e
    induction e with
    | zero => exact φ.map_zero
    | succ e ih =>
      rw [syndromeAt_succ, Finset.sum_range_succ, ← ih]
      split
      · rw [φ.map_xor (h.elem_syndromeAt e rem i) (h.elem_gfPow _), φ.toK_pow h, pow_mul]
      · rw [add_zero]
  rw [hsum e, bitPoly_eq_sum K hrem, eval_finsetSum]
  refine Finset.sum_congr rfl fun p _ => ?_
  split <;> simp

end Embedded

end Sys2Proof.Machine
end

section
/-! The roots of the generator polynomial (R89): over the field it is the product of x + α^c over the exponents c that
`genpoly` has seen, which are distinct, as many as its degree, and powers-of-two multiples of 1 .. 2t. -/

namespace Sys2Proof.Machine

open Polynomial

/-! ## Cyclotomic cosets, element by element -/

/-- A coset is a run of doublings that does not come back to its start. -/
theorem cosetLoop_eq_map {fuel n i c : Nat} (hc : c < n) :
    ∃ len ≤ fuel, cosetLoop fuel n i c = (List.range len).map (fun k => 2 ^ k * c % n) ∧
      ∀ k, 1 ≤ k → k < len → 2 ^ k * c % n ≠ i := by
  induction fuel generalizing c with
  | zero => exact ⟨0, le_rfl, rfl, by omega⟩
  | succ fuel ih =>
    have hdouble (k : Nat) : 2 ^ k * (2 * c % n) % n = 2 ^ (k + 1) * c % n := by
      rw [Nat.mul_mod_mod, ← mul_assoc, ← pow_succ]
    rw [cosetLoop]
    split
    · refine ⟨1, by omega, ?_, by omega⟩
      simp [Nat.mod_eq_of_lt hc]
    next hi =>
      obtain ⟨len, hlen, heq, hne⟩ := ih (Nat.mod_lt (2 * c) (by omega))
      refine ⟨len + 1, by omega, ?_, fun k h1 hk => ?_⟩
      · rw [heq, List.range_succ_eq_map, List.map_cons, List.map_map]
        refine congrArg₂ List.cons (by simp [Nat.mod_eq_of_lt hc]) (List.map_congr_left fun k _ => hdouble k)
      · obtain ⟨j, rfl⟩ := Nat.exists_eq_add_of_le' h1
        obtain rfl | hj := Nat.eq_zero_or_pos j
        · simpa using hi
        · rw [← hdouble]
          exact hne j hj (by omega)

section Cosets

variable {m i : Nat}

theorem coprime_two_pow_order (hm : 1 ≤ m) (k : Nat) : Nat.Coprime (2 ^ m - 1) (2 ^ k) := by
  refine Nat.Coprime.pow_right k (Nat.coprime_two_right.2 ?_)
  exact Nat.Even.sub_odd Nat.one_le_two_pow ((Nat.even_pow.2 ⟨even_two, by omega⟩)) odd_one

/-- Doubling modulo 2^m - 1 is injective. -/
theorem two_pow_mul_mod_inj (hm : 1 ≤ m) (k : Nat) {x y : Nat}
    (h : 2 ^ k * x % (2 ^ m - 1) = 2 ^ k * y % (2 ^ m - 1)) : x % (2 ^ m - 1) = y % (2 ^ m - 1) :=
  Nat.ModEq.cancel_left_of_coprime (coprime_two_pow_order hm k) h

/-- The elements of a coset are distinct. -/
theorem coset_nodup (hm : 1 ≤ m) (hi : i < 2 ^ m - 1) : (coset m (2 ^ m - 1) i).Nodup := by
  obtain ⟨len, -, heq, hne⟩ := cosetLoop_eq_map (fuel := m) (i := i) hi
  rw [coset, heq]
  refine List.Nodup.map_on (fun a ha b hb hab => ?_) List.nodup_range
  have ha := List.mem_range.1 ha
  have hb := List.mem_range.1 hb
  wlog hle : a ≤ b generalizing a b
  · exact (this b (List.mem_range.2 hb) a (List.mem_range.2 ha) hab.symm hb ha (by omega)).symm
  obtain ⟨d, rfl⟩ := Nat.exists_eq_add_of_le hle
  by_contra hd
  rw [pow_add, mul_assoc] at hab
  have hback := two_pow_mul_mod_inj hm a hab
  rw [Nat.mod_eq_of_lt hi] at hback
  exact hne d (by omega) (by omega) hback.symm

/-- The elements of a coset are the start times powers of two, and lead back to it. -/
theorem mem_coset (hi : i < 2 ^ m - 1) {x : Nat} (hx : x ∈ coset m (2 ^ m - 1) i) :
    x < 2 ^ m - 1 ∧ (∃ k, x = 2 ^ k * i % (2 ^ m - 1)) ∧ ∃ k, 2 ^ k * x % (2 ^ m - 1) = i := by
  obtain ⟨len, hlen, heq, -⟩ := cosetLoop_eq_map (fuel := m) (i := i) hi
  rw [coset, heq, List.mem_map] at hx
  obtain ⟨k, hk, rfl⟩ := hx
  have hk := List.mem_range.1 hk
  refine ⟨Nat.mod_lt _ (by omega), ⟨k, rfl⟩, m - k, ?_⟩
  rw [Nat.mul_mod_mod, ← mul_assoc, ← pow_add, Nat.sub_add_cancel (by omega), two_pow_mul_mod_order hi]

theorem DoublingClosed.two_pow_mul {n : Nat} {seen : List Nat} (h : DoublingClosed n seen) {x : Nat} (hx : x ∈ seen)
    (hlt : x < n) (k : Nat) : 2 ^ k * x % n ∈ seen := by
  induction k with
  | zero => simpa [Nat.mod_eq_of_lt hlt] using hx
  | succ k ih =>
    have hd := h _ ih
    rwa [Nat.mul_mod_mod, ← mul_assoc, ← pow_succ'] at hd

/-- Doubling permutes a coset. -/
theorem coset_map_double_perm (hm : 1 ≤ m) (hi : i < 2 ^ m - 1) :
    ((coset m (2 ^ m - 1) i).map fun c => 2 * c % (2 ^ m - 1)).Perm (coset m (2 ^ m - 1) i) := by
  have hnodup : ((coset m (2 ^ m - 1) i).map fun c => 2 * c % (2 ^ m - 1)).Nodup := by
    refine List.Nodup.map_on (fun a ha b hb hab => ?_) (coset_nodup hm hi)
    obtain ⟨hla, -⟩ := mem_coset hi ha
    obtain ⟨hlb, -⟩ := mem_coset hi hb
    have := two_pow_mul_mod_inj hm 1 (x := a) (y := b) (by simpa using hab)
    rwa [Nat.mod_eq_of_lt hla, Nat.mod_eq_of_lt hlb] at this
  refine (List.subperm_of_subset hnodup fun x hx => ?_).perm_of_length_le (by simp)
  obtain ⟨c, hc, rfl⟩ := List.mem_map.1 hx
  exact coset_doublingClosed hm hi c hc

end Cosets

/-! ## Lists of elements as polynomials -/

section Embedded

variable {m P : Nat} {F : GfTables} {K : Type} [Field K] (φ : GfEmbedding F K)

/-- The polynomial whose coefficients, lowest first, are the elements of a list. -/
noncomputable def GfEmbedding.listPoly (l : List Half) : K[X] :=
  l.foldr (fun c acc => C (φ.toK c) + X * acc) 0

@[simp] theorem GfEmbedding.listPoly_nil : φ.listPoly [] = 0 := rfl

@[simp] theorem GfEmbedding.listPoly_cons (c : Half) (l : List Half) :
    φ.listPoly (c :: l) = C (φ.toK c) + X * φ.listPoly l := rfl

@[simp] theorem GfEmbedding.coeff_listPoly (l : List Half) (j : Nat) :
    (φ.listPoly l).coeff j = φ.toK (l.getD j 0) := by
  induction l generalizing j with
  | nil => simp
  | cons c l ih =>
    cases j with
    | zero => simp
    | succ j => simp [ih, coeff_C_succ]

/-- Every entry of a list is an element. -/
def AllElem (F : GfTables) (l : List Half) : Prop := ∀ c ∈ l, F.elem c

theorem AllElem.getD {l : List Half} (h : AllElem F l) (j : Nat) : F.elem (l.getD j 0) := by
  obtain hj | hj := Nat.lt_or_ge j l.length
  · rw [List.getD_eq_getElem _ _ hj]
    exact h _ (List.getElem_mem hj)
  · rw [List.getD_eq_default _ _ hj]
    exact F.elem_zero

/-! ## Minimal polynomials -/

theorem mulLinear_getD (F : GfTables) (mp : List Half) (r : Half) (j : Nat) :
    (mulLinear F mp r).getD j 0 = (0 :: mp).getD j 0 ^^^ F.mul (mp.getD j 0) r := by
  have hsnd : (mp.map (fun c => F.mul c r) ++ [0]).getD j 0 = F.mul (mp.getD j 0) r := by
    obtain hj | hj := Nat.lt_or_ge j mp.length
    · rw [List.getD_append _ _ _ _ (by simpa using hj), List.getD_eq_getElem _ _ (by simpa using hj),
        List.getElem_map, List.getD_eq_getElem _ _ hj]
    · rw [List.getD_append_right _ _ _ _ (by simpa using hj), List.getD_eq_default mp _ hj, F.zero_mul]
      cases j - (mp.map fun c => F.mul c r).length <;> rfl
  rw [← hsnd, mulLinear, List.getD_eq_getElem?_getD, List.getElem?_zipWith]
  obtain hj | hj := Nat.lt_or_ge j (mp.length + 1)
  · rw [List.getD_eq_getElem _ _ (by simpa using hj), List.getD_eq_getElem _ _ (by simpa using hj),
      List.getElem?_eq_getElem (by simpa using hj), List.getElem?_eq_getElem (by simpa using hj)]
    rfl
  · rw [List.getD_eq_default _ _ (by simpa using hj), List.getD_eq_default _ _ (by simpa using hj),
      List.getElem?_eq_none (by simpa using hj)]
    rfl

variable (h : TablesOk m P F)

include h in
theorem TablesOk.allElem_mulLinear {mp : List Half} (hmp : AllElem F mp) (r : Half) :
    AllElem F (mulLinear F mp r) := by
  intro c hc
  obtain ⟨j, hj, rfl⟩ := List.getElem_of_mem hc
  rw [← List.getD_eq_getElem _ 0 hj, mulLinear_getD]
  refine h.elem_gfAdd (AllElem.getD (fun c hc => ?_) j) (h.elem_mul _ _)
  obtain rfl | hc := List.mem_cons.1 hc
  · exact F.elem_zero
  · exact hmp c hc

include h in
/-- One factor more (R89). -/
theorem GfEmbedding.listPoly_mulLinear {mp : List Half} (hmp : AllElem F mp) {r : Half} (hr : F.elem r) :
    φ.listPoly (mulLinear F mp r) = φ.listPoly mp * (X + C (φ.toK r)) := by
  ext j
  have hshift : AllElem F (0 :: mp) := List.forall_mem_cons.2 ⟨F.elem_zero, hmp⟩
  rw [φ.coeff_listPoly, mulLinear_getD, φ.map_xor (hshift.getD j) (h.elem_mul _ _), φ.map_mul (hmp.getD j) hr,
    mul_add, coeff_add, coeff_mul_C, φ.coeff_listPoly]
  cases j <;> simp

include h in
theorem TablesOk.allElem_minPoly (cs : List Nat) : AllElem F (minPoly F cs) :=
  List.foldlRecOn _ _ (motive := AllElem F) (fun _ hc => List.mem_singleton.1 hc ▸ h.elem_one)
    fun _ hmp _ _ => h.allElem_mulLinear hmp _

/-- The product of x + α^c over a list of exponents. -/
noncomputable def GfEmbedding.rootPoly (cs : List Nat) : K[X] := (cs.map fun c => X + C (φ.alpha ^ c)).prod

include h in
/-- The minimal polynomial is the product of x + α^c over its coset (R89). -/
theorem GfEmbedding.listPoly_minPoly (cs : List Nat) : φ.listPoly (minPoly F cs) = φ.rootPoly cs := by
  suffices hfold : ∀ mp, AllElem F mp →
      φ.listPoly (cs.foldl (fun mp c => mulLinear F mp (F.pow c)) mp) = φ.listPoly mp * φ.rootPoly cs by
    have hone := hfold [1] fun c hc => by
      obtain rfl := List.mem_singleton.1 hc
      exact h.elem_one
    simpa [minPoly] using hone
  induction cs with
  | nil => intro mp _; simp [rootPoly]
  | cons c cs ih =>
    intro mp hmp
    rw [List.foldl_cons, ih _ (h.allElem_mulLinear hmp _), φ.listPoly_mulLinear h hmp (h.elem_gfPow c), φ.toK_pow h,
      rootPoly, rootPoly, List.map_cons, List.prod_cons, mul_assoc]

variable [CharP K 2]

include h in
/-- The coefficients of the minimal polynomial of a coset are their own squares: squaring permutes its roots. -/
theorem GfEmbedding.coeff_rootPoly_coset {i : Nat} (hi : i < F.n) (j : Nat) :
    (φ.rootPoly (coset m F.n i)).coeff j = 0 ∨ (φ.rootPoly (coset m F.n i)).coeff j = 1 := by
  have hfrob : (φ.rootPoly (coset m F.n i)).map (frobenius K 2) = φ.rootPoly (coset m F.n i) := by
    have hfactor (c : Nat) : (X + C (φ.alpha ^ c)).map (frobenius K 2) = X + C (φ.alpha ^ (2 * c % F.n)) := by
      rw [Polynomial.map_add, map_X, map_C, frobenius_def, ← pow_mul, φ.alpha_pow_mod h, mul_comm]
    have hperm := coset_map_double_perm h.m_pos (h.n_eq ▸ hi)
    rw [← h.n_eq] at hperm
    rw [rootPoly, Polynomial.map_list_prod, List.map_map, ← (hperm.map fun c => X + C (φ.alpha ^ c)).prod_eq,
      List.map_map]
    exact congrArg List.prod (List.map_congr_left fun c _ => hfactor c)
  have hsq := congrArg (coeff · j) hfrob
  rw [coeff_map, frobenius_def, sq] at hsq
  exact IsIdempotentElem.iff_eq_zero_or_one.1 hsq

/-- A list of zeros and ones, read as a number (R89). -/
theorem GfEmbedding.bitPoly_gf2Poly {l : List Half} (hl : AllElem F l)
    (hbits : ∀ j, (φ.listPoly l).coeff j = 0 ∨ (φ.listPoly l).coeff j = 1) :
    bitPoly K (gf2Poly l) = φ.listPoly l := by
  induction l with
  | nil => exact bitPoly_zero K
  | cons c l ih =>
    obtain ⟨hc, hl⟩ := List.forall_mem_cons.1 hl
    have hlow : bitPoly K (if c = 0 then 0 else 1) = C (φ.toK c) := by
      have hc01 : φ.toK c = 0 ∨ φ.toK c = 1 := by simpa using hbits 0
      split
      next h0 => rw [h0, bitPoly_zero]; simp
      next h0 =>
        rw [bitPoly_one, hc01.resolve_left fun hz => h0 ((φ.toK_eq_zero hc).1 hz), C_1]
    have hsum : gf2Poly (c :: l) = gf2Poly l <<< 1 ^^^ (if c = 0 then 0 else 1) := by
      have hbit : (if c = 0 then 0 else 1) = (decide (c ≠ 0)).toNat := by
        by_cases hc : c = 0#16 <;> simp [hc]
      rw [hbit, ← shiftLeft_or_bit, ← Nat.shiftLeft_add_eq_or_of_lt (Bool.toNat_lt _), ← hbit, Nat.shiftLeft_eq,
        mul_comm]
      rfl
    rw [hsum, bitPoly_xor, bitPoly_shiftLeft, hlow, ih hl fun j => by simpa using hbits (j + 1), listPoly_cons, pow_one]
    ring

/-! ## The generator polynomial -/

/-- What holds of the loop of `genpoly` (R89) after the exponents 1 to `r`, over the field: the exponents seen are
distinct, closed under doubling and multiples of 1 .. r by powers of two, and the polynomial so far has just them as the
exponents of its roots. -/
structure GenRoots (r : Nat) (acc : Nat × List Nat) : Prop where
  nodup : acc.2.Nodup
  lt : ∀ x ∈ acc.2, x < F.n
  closed : DoublingClosed F.n acc.2
  origin : ∀ x ∈ acc.2, ∃ i k, 1 ≤ i ∧ i ≤ r ∧ x = 2 ^ k * i % F.n
  seen : ∀ j, 1 ≤ j → j ≤ r → j ∈ acc.2
  degree : acc.1 ≠ 0 ∧ acc.1.log2 = acc.2.length
  roots : bitPoly K acc.1 = φ.rootPoly acc.2

omit [CharP K 2] in
theorem GfEmbedding.rootPoly_append (cs ds : List Nat) :
    φ.rootPoly (cs ++ ds) = φ.rootPoly cs * φ.rootPoly ds := by
  rw [rootPoly, List.map_append, List.prod_append]
  rfl

omit [CharP K 2] in
theorem genRoots_start : GenRoots φ 0 (1, []) where
  nodup := List.nodup_nil
  lt := by simp
  closed := by simp [DoublingClosed]
  origin := by simp
  seen := by omega
  degree := ⟨Nat.one_ne_zero, by simp [Nat.log2_def]⟩
  roots := by simp [bitPoly_one, GfEmbedding.rootPoly]

include h in
theorem GenRoots.step {r : Nat} {acc : Nat × List Nat} (hr : r + 1 < F.n) (ha : GenRoots φ r acc) :
    GenRoots φ (r + 1) (genStep F m acc (r + 1)) := by
  have horigin : ∀ x ∈ acc.2, ∃ i k, 1 ≤ i ∧ i ≤ r + 1 ∧ x = 2 ^ k * i % F.n := fun x hx => by
    obtain ⟨i, k, h1, hi, hx⟩ := ha.origin x hx
    exact ⟨i, k, h1, by omega, hx⟩
  unfold genStep
  split
  next hseen =>
    refine { ha with origin := horigin, seen := fun j h1 hj => ?_ }
    obtain rfl | hlt := hj.eq_or_lt
    · simpa using hseen
    · exact ha.seen j h1 (by omega)
  next hnew =>
  have hn := h.n_eq
  have hnew : r + 1 ∉ acc.2 := by simpa using hnew
  have hcoset : ∀ x ∈ coset m F.n (r + 1), x < F.n ∧ (∃ k, x = 2 ^ k * (r + 1) % F.n) ∧ ∃ k, 2 ^ k * x % F.n = r + 1 :=
    fun x hx => by rw [hn] at hx hr ⊢; exact mem_coset hr hx
  have hself : r + 1 ∈ coset m F.n (r + 1) := by
    obtain ⟨k, rfl⟩ := Nat.exists_eq_add_of_le' h.m_pos
    exact mem_cosetLoop_self k _ _ _
  obtain ⟨hfactor, hdeg⟩ := gf2Poly_minPoly F (coset m F.n (r + 1))
  obtain ⟨hne, hlog⟩ := clmul_log2 ha.degree.1 hfactor
  constructor
  case nodup =>
    refine List.nodup_append.2 ⟨ha.nodup, by rw [hn] at hr ⊢; exact coset_nodup h.m_pos hr, fun x hx y hy hxy => ?_⟩
    subst hxy
    obtain ⟨hlt, -, k, hk⟩ := hcoset x hy
    exact hnew (hk ▸ ha.closed.two_pow_mul hx hlt k)
  case lt =>
    exact fun x hx => (List.mem_append.1 hx).elim (ha.lt x) fun hx => (hcoset x hx).1
  case closed =>
    intro x hx
    obtain hx | hx := List.mem_append.1 hx
    · exact List.mem_append_left _ (ha.closed x hx)
    · refine List.mem_append_right _ ?_
      rw [hn] at hx hr ⊢
      exact coset_doublingClosed h.m_pos hr x hx
  case origin =>
    intro x hx
    obtain hx | hx := List.mem_append.1 hx
    · exact horigin x hx
    · obtain ⟨-, ⟨k, hk⟩, -⟩ := hcoset x hx
      exact ⟨r + 1, k, by omega, le_rfl, hk⟩
  case seen =>
    intro j h1 hj
    obtain rfl | hlt := hj.eq_or_lt
    · exact List.mem_append_right _ hself
    · exact List.mem_append_left _ (ha.seen j h1 (by omega))
  case degree => exact ⟨hne, by rw [hlog, hdeg, ha.degree.2, List.length_append]⟩
  case roots =>
    rw [bitPoly_clmul, ha.roots, φ.rootPoly_append, ← φ.listPoly_minPoly h (coset m F.n (r + 1))]
    refine congrArg _ (φ.bitPoly_gf2Poly (h.allElem_minPoly _) fun j => ?_)
    rw [φ.listPoly_minPoly h]
    exact φ.coeff_rootPoly_coset h hr j

include h in
/-- The loop of `genpoly` over the exponents 1 to `r`. -/
theorem genRoots_fold {r : Nat} (hr : r < F.n) :
    GenRoots φ r ((List.range' Config.root0 r).foldl (genStep F m) (1, [])) := by
  induction r with
  | zero => exact genRoots_start φ
  | succ r ih =>
    rw [List.range'_concat, List.foldl_append, List.foldl_cons, List.foldl_nil,
      show Config.root0 + 1 * r = r + 1 by simp [Config.root0, Nat.add_comm]]
    exact (ih (by omega)).step φ h hr

/-- In a derived code 2t is below n. -/
theorem TablesOk.two_t_lt {t : Nat} (h : TablesOk m P F) (hmt : m * t < F.n) : 2 * t < F.n :=
  (Nat.mul_le_mul_right t h.m_lo).trans_lt hmt

include h in
/-- α^1 .. α^2t are roots of the generator polynomial (R89). -/
theorem GfEmbedding.eval_genPoly {t i : Nat} (hmt : m * t < F.n) (h1 : 1 ≤ i) (hi : i ≤ 2 * t) :
    (bitPoly K (genPoly F m t)).eval (φ.alpha ^ i) = 0 := by
  have hg := genRoots_fold φ h (h.two_t_lt hmt)
  rw [genPoly_eq, hg.roots, rootPoly, eval_list_prod, List.map_map]
  refine List.prod_eq_zero (List.mem_map.2 ⟨i, hg.seen i h1 hi, ?_⟩)
  simp [CharTwo.add_self_eq_zero]

/-- Powers of two: the value at a power of a root, the coefficients being 0 and 1. -/
theorem eval_bitPoly_two_pow (β : K) (x k : Nat) : (bitPoly K x).eval (β ^ 2 ^ k) = (bitPoly K x).eval β ^ 2 ^ k := by
  induction k with
  | zero => simp
  | succ k ih => rw [pow_succ, pow_mul, eval_bitPoly_sq, ih, ← pow_mul]

include h in
/-- A polynomial of lower degree than g that vanishes at α^1 .. α^2t is 0: it vanishes at all roots of g, which are
distinct and as many as the degree of g (R128). -/
theorem GfEmbedding.eq_zero_of_roots {t rem : Nat} (hmt : m * t < F.n) (hrem : rem < 2 ^ (genPoly F m t).log2)
    (hroots : ∀ i, 1 ≤ i → i ≤ 2 * t → (bitPoly K rem).eval (φ.alpha ^ i) = 0) : rem = 0 := by
  have hg := genRoots_fold φ h (h.two_t_lt hmt)
  rw [genPoly_eq, hg.degree.2] at hrem
  generalize (List.range' Config.root0 (2 * t)).foldl (genStep F m) (1, []) = acc at hg hrem
  have hinj : (acc.2.map (φ.alpha ^ ·)).Nodup := hg.nodup.map_on fun a ha b hb hab => by
    have := (φ.alpha_pow_eq_iff h).1 hab
    rwa [Nat.mod_eq_of_lt (hg.lt a ha), Nat.mod_eq_of_lt (hg.lt b hb)] at this
  classical
  have hcard : (acc.2.map (φ.alpha ^ ·)).toFinset.card = acc.2.length := by
    rw [List.toFinset_card_of_nodup hinj, List.length_map]
  refine (bitPoly_eq_zero K).1 (eq_zero_of_degree_lt_of_eval_finset_eq_zero _
    (hcard.symm ▸ degree_bitPoly_lt K hrem) fun β hβ => ?_)
  obtain ⟨c, hc, rfl⟩ := List.mem_map.1 (List.mem_toFinset.1 hβ)
  obtain ⟨i, k, h1, hi, rfl⟩ := hg.origin c hc
  rw [φ.alpha_pow_mod h, mul_comm, pow_mul, eval_bitPoly_two_pow, hroots i h1 hi, zero_pow (by positivity)]

end Embedded

/-- Settles O50. -/
theorem syndromesAreZeroExactlyOnCodewords : Obligations.SyndromesAreZeroExactlyOnCodewords := by
  intro m P F t rem h ht hmt hrem
  refine ⟨fun hzero => ?_, fun h0 i _ _ => h0 ▸ syndromeAt_zero F _ i⟩
  obtain ⟨K, _, _, ⟨φ⟩⟩ := h.exists_embedding
  refine φ.eq_zero_of_roots h hmt hrem fun i h1 hi => ?_
  rw [← φ.toK_syndromeAt h hrem, hzero i h1 hi]
  exact φ.map_zero

end Sys2Proof.Machine
end

section
/-! The algebra of the solver (R131 (f)), over any field of characteristic 2: the locator of the errors, the series of
their power sums, and how far a polynomial is from solving them. -/

namespace Sys2Proof.Machine

open Polynomial

section Locators

variable {K : Type} [Field K]

/-- The error locator: the product of 1 + βx over the error locators β (R131 (f)). -/
noncomputable def locatorPoly (βs : List K) : K[X] := (βs.map fun β => C β * X + 1).prod

@[simp] theorem locatorPoly_nil : locatorPoly ([] : List K) = 1 := rfl

@[simp] theorem locatorPoly_cons (β : K) (βs : List K) :
    locatorPoly (β :: βs) = (C β * X + 1) * locatorPoly βs := rfl

theorem coeff_zero_locatorPoly (βs : List K) : (locatorPoly βs).coeff 0 = 1 := by
  induction βs with
  | nil => simp
  | cons β βs ih => rw [locatorPoly_cons, mul_coeff_zero, ih]; simp

theorem natDegree_locatorPoly {βs : List K} (h0 : ∀ β ∈ βs, β ≠ 0) : (locatorPoly βs).natDegree = βs.length := by
  induction βs with
  | nil => simp
  | cons β βs ih =>
    obtain ⟨hβ, hβs⟩ := List.forall_mem_cons.1 h0
    have hlin : (C β * X + 1).natDegree = 1 := natDegree_linear (b := 1) hβ
    have hne : locatorPoly βs ≠ 0 := fun h => by
      have hc := coeff_zero_locatorPoly βs
      rw [h, coeff_zero] at hc
      exact zero_ne_one hc
    rw [locatorPoly_cons, natDegree_mul (ne_zero_of_natDegree_gt (hlin ▸ Nat.zero_lt_one)) hne, hlin, ih hβs,
      List.length_cons, Nat.add_comm]

/-- The value of the locator is 0 exactly at the reciprocals of the error locators. -/
theorem eval_locatorPoly_eq_zero [CharP K 2] {βs : List K} {x : K} :
    (locatorPoly βs).eval x = 0 ↔ ∃ β ∈ βs, β * x = 1 := by
  rw [locatorPoly, eval_list_prod, List.prod_eq_zero_iff, List.map_map]
  simp [CharTwo.add_eq_zero]

/-- Factors of distinct locators are coprime. -/
theorem isCoprime_factor {β γ : K} (h : β ≠ γ) : IsCoprime (C β * X + 1) (C γ * X + 1) := by
  refine ⟨C (-(γ / (β - γ))), C (β / (β - γ)), ?_⟩
  have hne : β - γ ≠ 0 := sub_ne_zero.2 h
  have hx : -(γ / (β - γ)) * β + β / (β - γ) * γ = 0 := by field_simp; ring
  have h1 : -(γ / (β - γ)) + β / (β - γ) = 1 := by field_simp; ring
  calc C (-(γ / (β - γ))) * (C β * X + 1) + C (β / (β - γ)) * (C γ * X + 1)
      = C (-(γ / (β - γ)) * β + β / (β - γ) * γ) * X + C (-(γ / (β - γ)) + β / (β - γ)) := by
        simp only [C_add, C_mul]; ring
    _ = 1 := by rw [hx, h1]; simp

/-- The locator of distinct errors has no double root. -/
theorem separable_locatorPoly {βs : List K} (h0 : ∀ β ∈ βs, β ≠ 0) (hd : βs.Nodup) : (locatorPoly βs).Separable := by
  induction βs with
  | nil => exact separable_one
  | cons β βs ih =>
    obtain ⟨hβ, hβs⟩ := List.forall_mem_cons.1 h0
    obtain ⟨hnot, hd⟩ := List.nodup_cons.1 hd
    have hfactor : (C β * X + 1).Separable := by
      rw [Polynomial.Separable, derivative_add, derivative_C_mul, derivative_X, derivative_one, mul_one, add_zero]
      exact isCoprime_one_right.of_isCoprime_of_dvd_right (isUnit_C.2 hβ.isUnit).dvd
    refine hfactor.mul (ih hβs hd) ?_
    have hcop : ∀ γs : List K, β ∉ γs → IsCoprime (C β * X + 1) (locatorPoly γs) := by
      intro γs
      induction γs with
      | nil => exact fun _ => isCoprime_one_right
      | cons γ γs ihγ =>
        intro hmem
        obtain ⟨hne, hmem⟩ := not_or.1 (mt List.mem_cons.2 hmem)
        exact (isCoprime_factor hne).mul_right (ihγ hmem)
    exact hcop βs hnot

/-- The series of the power sums: its coefficient at x^j is the sum of the powers j + 1, which is the syndrome
S_(j+1) (R126). -/
noncomputable def powerSums (βs : List K) : PowerSeries K :=
  PowerSeries.mk fun j => (βs.map (· ^ (j + 1))).sum

/-- Newton's identities: the locator times the power sums is its derivative. -/
theorem locatorPoly_mul_powerSums [CharP K 2] (βs : List K) :
    (locatorPoly βs : PowerSeries K) * powerSums βs = (derivative (locatorPoly βs) : PowerSeries K) := by
  induction βs with
  | nil => simp [powerSums]; rfl
  | cons β βs ih =>
    have hsplit : powerSums (β :: βs) = PowerSeries.mk (fun j => β ^ (j + 1)) + powerSums βs := by
      ext j
      simp [powerSums]
    have hgeom : ((C β * X + 1 : K[X]) : PowerSeries K) * PowerSeries.mk (fun j => β ^ (j + 1)) =
        ((C β : K[X]) : PowerSeries K) := by
      ext j
      cases j with
      | zero => simp
      | succ j =>
        rw [Polynomial.coe_add, Polynomial.coe_mul, Polynomial.coe_C, Polynomial.coe_X, Polynomial.coe_one, add_mul,
          one_mul, mul_assoc, map_add, PowerSeries.coeff_C_mul, PowerSeries.coeff_succ_X_mul, PowerSeries.coeff_mk,
          PowerSeries.coeff_mk, ← pow_succ', CharTwo.add_self_eq_zero, ← Polynomial.coe_C, Polynomial.coeff_coe,
          coeff_C_succ]
    have hderiv : derivative (locatorPoly (β :: βs)) =
        C β * locatorPoly βs + (C β * X + 1) * derivative (locatorPoly βs) := by
      rw [locatorPoly_cons, derivative_mul, derivative_add, derivative_C_mul, derivative_X, derivative_one, mul_one,
        add_zero]
    rw [hderiv, hsplit, locatorPoly_cons, Polynomial.coe_add, Polynomial.coe_mul, Polynomial.coe_mul,
      Polynomial.coe_mul, ← ih, ← hgeom]
    ring

end Locators

/-! ## The defect of a polynomial -/

section Defect

variable {K : Type} [Field K]

/-- How far `A` is from solving the power sums `S`: A · S + A', which is 0 for the locator of the errors. Its
coefficient at x^2i is the discrepancy of R130 in iteration i. -/
noncomputable def defect (S : PowerSeries K) (A : K[X]) : PowerSeries K := A * S + derivative A

theorem defect_add (S : PowerSeries K) (A B : K[X]) : defect S (A + B) = defect S A + defect S B := by
  simp only [defect, derivative_add, Polynomial.coe_add]
  ring

theorem defect_C_mul (S : PowerSeries K) (q : K) (A : K[X]) : defect S (C q * A) = PowerSeries.C q * defect S A := by
  simp only [defect, derivative_C_mul, Polynomial.coe_mul, Polynomial.coe_C]
  ring

variable [CharP K 2]

/-- A shift by an even power commutes with the derivative in characteristic 2. -/
theorem defect_X_sq_mul (S : PowerSeries K) (A : K[X]) :
    defect S (X ^ 2 * A) = PowerSeries.X ^ 2 * defect S A := by
  have hderiv : derivative (X ^ 2 * A) = X ^ 2 * derivative A := by
    rw [derivative_mul, derivative_X_sq, CharTwo.two_eq_zero]
    simp
  simp only [defect, hderiv, Polynomial.coe_mul, Polynomial.coe_pow, Polynomial.coe_X]
  ring

variable {βs : List K}

/-- Multiplied by the locator of the errors, the defect is a derivative. -/
theorem locatorPoly_mul_defect (A : K[X]) :
    (locatorPoly βs : PowerSeries K) * defect (powerSums βs) A = (derivative (A * locatorPoly βs) : PowerSeries K) := by
  rw [defect, mul_add, mul_left_comm, locatorPoly_mul_powerSums, derivative_mul, Polynomial.coe_add, Polynomial.coe_mul,
    Polynomial.coe_mul]
  ring

omit [CharP K 2] in
theorem isUnit_locatorPoly (βs : List K) : IsUnit (locatorPoly βs : PowerSeries K) := by
  rw [PowerSeries.isUnit_iff_constantCoeff, ← PowerSeries.coeff_zero_eq_constantCoeff_apply, Polynomial.coeff_coe,
    coeff_zero_locatorPoly]
  exact isUnit_one

theorem X_pow_dvd_defect_iff {r : Nat} {A : K[X]} :
    PowerSeries.X ^ r ∣ defect (powerSums βs) A ↔ ∀ j < r, (derivative (A * locatorPoly βs)).coeff j = 0 := by
  rw [← (isUnit_locatorPoly βs).dvd_mul_left, locatorPoly_mul_defect, PowerSeries.X_pow_dvd_iff]
  simp only [Polynomial.coeff_coe]

/-- Derivatives in characteristic 2 have no odd powers, so a defect never starts at one: this is why the discrepancies
of even number need not be computed. -/
theorem X_pow_even_dvd_defect {i : Nat} {A : K[X]} (h : PowerSeries.X ^ (2 * i + 1) ∣ defect (powerSums βs) A) :
    PowerSeries.X ^ (2 * (i + 1)) ∣ defect (powerSums βs) A := by
  rw [X_pow_dvd_defect_iff] at h ⊢
  intro j hj
  obtain rfl | hlt := (show j ≤ 2 * i + 1 by omega).eq_or_lt
  · rw [coeff_derivative]
    have heven : ((2 * i + 1 : Nat) : K) + 1 = 0 := by
      push_cast
      rw [CharTwo.two_eq_zero, zero_mul, zero_add, CharTwo.add_self_eq_zero]
    rw [heven, mul_zero]
  · exact h j hlt

/-- A polynomial whose defect starts at x^2i has, with the locator, degree above 2i: the bound that makes the solver's
degree counter minimal. -/
theorem lt_degree_of_defect {i l : Nat} {A : K[X]} {V : PowerSeries K} (hl : A.natDegree ≤ l)
    (hA : defect (powerSums βs) A = PowerSeries.X ^ (2 * i) * V) (hV : PowerSeries.constantCoeff V ≠ 0) :
    2 * i + 1 ≤ l + (locatorPoly βs).natDegree := by
  have hcoeff : (derivative (A * locatorPoly βs)).coeff (2 * i) = PowerSeries.constantCoeff V := by
    rw [← Polynomial.coeff_coe, ← locatorPoly_mul_defect, hA, mul_left_comm, PowerSeries.coeff_X_pow_mul',
      if_pos le_rfl, Nat.sub_self, PowerSeries.coeff_zero_eq_constantCoeff_apply, map_mul,
      ← PowerSeries.coeff_zero_eq_constantCoeff_apply, Polynomial.coeff_coe, coeff_zero_locatorPoly, one_mul]
  have hne : (A * locatorPoly βs).coeff (2 * i + 1) ≠ 0 := fun h0 => hV (by
    rw [← hcoeff, coeff_derivative, h0, zero_mul])
  exact (le_natDegree_of_ne_zero hne).trans (natDegree_mul_le.trans (Nat.add_le_add_right hl _))

/-- The locator is the only polynomial of constant term 1 and degree at most the number of errors whose defect vanishes
up to x^2t. -/
theorem eq_locatorPoly_of_defect {t : Nat} {A : K[X]} (h0 : ∀ β ∈ βs, β ≠ 0) (hd : βs.Nodup) (ht : βs.length ≤ t)
    (hA : A.natDegree ≤ βs.length) (hone : A.coeff 0 = 1)
    (hdefect : PowerSeries.X ^ (2 * t) ∣ defect (powerSums βs) A) : A = locatorPoly βs := by
  have hdeg := natDegree_locatorPoly h0
  have hderiv : derivative (A * locatorPoly βs) = 0 := by
    ext j
    obtain hj | hj := Nat.lt_or_ge j (2 * t)
    · exact X_pow_dvd_defect_iff.1 hdefect j hj
    · have hhigh : (A * locatorPoly βs).natDegree < j + 1 :=
        natDegree_mul_le.trans_lt (by omega)
      rw [coeff_derivative, coeff_eq_zero_of_natDegree_lt hhigh, zero_mul, coeff_zero]
  have hdvd : locatorPoly βs ∣ A := by
    refine (separable_locatorPoly h0 hd).dvd_of_dvd_mul_right ?_
    rw [derivative_mul, add_comm] at hderiv
    exact ⟨-derivative A, by linear_combination hderiv⟩
  obtain ⟨Q, hQ⟩ := hdvd
  have hA0 : A ≠ 0 := fun h => by rw [h, coeff_zero] at hone; exact zero_ne_one hone
  rw [hQ] at hA0
  have hQdeg : Q.natDegree = 0 := by
    rw [hQ, natDegree_mul (left_ne_zero_of_mul hA0) (right_ne_zero_of_mul hA0), hdeg] at hA
    omega
  rw [eq_C_of_natDegree_eq_zero hQdeg] at hQ
  rw [hQ, mul_coeff_zero, coeff_zero_locatorPoly, one_mul, coeff_C_zero] at hone
  rw [hQ, hone, C_1, mul_one]

end Defect

end Sys2Proof.Machine
end

section
/-! The solver on the syndromes of at most t errors (R131 (f)): in every iteration the defect of the current locator
starts two powers later, and the degree counter stays at most the number of errors. -/

namespace Sys2Proof.Machine

open Polynomial

section Solver

variable {m P : Nat} {F : GfTables} {K : Type} [Field K] (φ : GfEmbedding F K)

/-! ## Sums of elements -/

/-- A running sum of elements (R94). -/
theorem GfEmbedding.toK_foldl_xor (h : TablesOk m P F) {f : Nat → Half} (hf : ∀ j, F.elem (f j)) (L : List Nat)
    {a : Half} (ha : F.elem a) :
    F.elem (L.foldl (fun v j => v ^^^ f j) a) ∧
      φ.toK (L.foldl (fun v j => v ^^^ f j) a) = φ.toK a + (L.map fun j => φ.toK (f j)).sum := by
  induction L generalizing a with
  | nil => exact ⟨ha, by simp⟩
  | cons j L ih =>
    obtain ⟨helem, hsum⟩ := ih (h.elem_gfAdd ha (hf j))
    refine ⟨helem, ?_⟩
    rw [List.map_cons, List.sum_cons, ← add_assoc, ← φ.map_xor ha (hf j)]
    exact hsum

theorem sum_map_range (f : Nat → K) (n : Nat) : ((List.range n).map f).sum = ∑ j ∈ Finset.range n, f j := rfl

theorem GfEmbedding.natDegree_listPoly_le {l : Nat} {c : List Half} (hc : ∀ j, l < j → c.getD j 0 = 0) :
    (φ.listPoly c).natDegree ≤ l :=
  natDegree_le_iff_coeff_eq_zero.2 fun j hj => by rw [φ.coeff_listPoly, hc j hj]; exact φ.map_zero

/-! ## The shifted sum -/

theorem bmAddShifted_getD_inside (F : GfTables) {c : List Half} (b : List Half) {lb kk : Nat} (q : Half)
    (hlen : lb + kk < c.length) {x : Nat} (hlo : kk ≤ x) (hhi : x ≤ lb + kk) :
    (bmAddShifted F c b lb kk q).getD x 0 = c.getD x 0 ^^^ F.mul q (b.getD (x - kk) 0) := by
  have hx : x < c.length := by omega
  rw [List.getD_eq_getElem _ _ (by simpa using hx), List.getD_eq_getElem c 0 hx]
  simp only [bmAddShifted, List.getElem_mapIdx, if_pos (And.intro hlo hhi)]

theorem TablesOk.allElem_bmAddShifted (h : TablesOk m P F) {c : List Half} (hc : AllElem F c) (b : List Half)
    (lb kk : Nat) (q : Half) : AllElem F (bmAddShifted F c b lb kk q) := by
  intro v hv
  obtain ⟨x, hx, rfl⟩ := List.getElem_of_mem hv
  have hx' : x < c.length := by simpa using hx
  simp only [bmAddShifted, List.getElem_mapIdx]
  split
  · exact h.elem_gfAdd (hc _ (List.getElem_mem hx')) (h.elem_mul _ _)
  · exact hc _ (List.getElem_mem hx')

/-- The inner loop of R130 adds q · x^kk · B. -/
theorem GfEmbedding.listPoly_bmAddShifted (h : TablesOk m P F) {c b : List Half} {lb kk : Nat} {q : Half}
    (hc : AllElem F c) (hb : AllElem F b) (hq : F.elem q) (hlen : lb + kk < c.length)
    (habove : ∀ j, lb < j → b.getD j 0 = 0) :
    φ.listPoly (bmAddShifted F c b lb kk q) = φ.listPoly c + C (φ.toK q) * (X ^ kk * φ.listPoly b) := by
  ext x
  rw [coeff_add, coeff_C_mul, coeff_X_pow_mul', φ.coeff_listPoly, φ.coeff_listPoly, φ.coeff_listPoly]
  by_cases hlo : kk ≤ x
  · rw [if_pos hlo]
    by_cases hhi : x ≤ lb + kk
    · rw [bmAddShifted_getD_inside F b q hlen hlo hhi, φ.map_xor (hc.getD x) (h.elem_mul _ _),
        φ.map_mul hq (hb.getD _)]
    · rw [bmAddShifted_getD _ _ _ _ _ _ (.inr (by omega)), habove (x - kk) (by omega)]
      simp
  · rw [if_neg hlo, bmAddShifted_getD _ _ _ _ _ _ (.inl (by omega)), mul_zero, add_zero]

/-! ## The loop -/

/-- What the solver's variables are before iteration `i`, when the syndromes are the power sums of the locators `βs`:
the current locator solves the first 2i power sums, the last-change polynomial, shifted, fails first at x^2i and there
by `pd`, and the degree counter is at most the number of errors. -/
structure BmTrack (βs : List K) (i : Nat) (st : BmVars) : Prop where
  elem_c : AllElem F st.c
  elem_b : AllElem F st.scratch.b
  elem_d : F.elem st.d
  elem_pd : F.elem st.scratch.pd
  b_above : ∀ j, st.scratch.lb < j → st.scratch.b.getD j 0 = 0
  l_le : st.l ≤ βs.length
  solves : PowerSeries.X ^ (2 * i) ∣ defect (powerSums βs) (φ.listPoly st.c)
  last : ∃ U : PowerSeries K, PowerSeries.constantCoeff U = φ.toK st.scratch.pd ∧
    defect (powerSums βs) (X ^ (2 * (i : Int) - st.scratch.pp).toNat * φ.listPoly st.scratch.b) =
      PowerSeries.X ^ (2 * i) * U

/-- The current discrepancy is the first coefficient of the defect that may be other than 0. -/
def BmDiscrepancyOk (βs : List K) (i : Nat) (st : BmVars) : Prop :=
  φ.toK st.d = PowerSeries.coeff (2 * i) (defect (powerSums βs) (φ.listPoly st.c))

variable {φ} {βs : List K} {t i : Nat} {st : BmVars}

theorem coeff_X_pow_mul_self (r : Nat) (V : PowerSeries K) :
    PowerSeries.coeff r (PowerSeries.X ^ r * V) = PowerSeries.constantCoeff V := by
  rw [PowerSeries.coeff_X_pow_mul', if_pos le_rfl, Nat.sub_self, PowerSeries.coeff_zero_eq_constantCoeff_apply]

theorem X_pow_succ_dvd {r : Nat} {V : PowerSeries K} (hV : PowerSeries.constantCoeff V = 0) :
    PowerSeries.X ^ (r + 1) ∣ PowerSeries.X ^ r * V := by
  rw [pow_succ]
  exact mul_dvd_mul_left _ (PowerSeries.X_dvd_iff.2 hV)

/-- The defect of the current locator, with the discrepancy in front. -/
theorem BmTrack.exists_defect (ht : BmTrack φ βs i st) (hd : BmDiscrepancyOk φ βs i st) :
    ∃ V : PowerSeries K, PowerSeries.constantCoeff V = φ.toK st.d ∧
      defect (powerSums βs) (φ.listPoly st.c) = PowerSeries.X ^ (2 * i) * V := by
  obtain ⟨V, hV⟩ := ht.solves
  refine ⟨V, ?_, hV⟩
  rw [hd, hV, coeff_X_pow_mul_self]

variable [CharP K 2]

/-- The last-change polynomial shifted by two more. -/
theorem BmTrack.last_succ (ht : BmTrack φ βs i st) (hpp : st.scratch.pp ≤ 2 * (i : Int)) :
    ∃ U : PowerSeries K, PowerSeries.constantCoeff U = φ.toK st.scratch.pd ∧
      defect (powerSums βs) (X ^ (2 * ((i + 1 : Nat) : Int) - st.scratch.pp).toNat * φ.listPoly st.scratch.b) =
        PowerSeries.X ^ (2 * (i + 1)) * U := by
  obtain ⟨U, hU, hdefect⟩ := ht.last
  refine ⟨U, hU, ?_⟩
  rw [show (2 * ((i + 1 : Nat) : Int) - st.scratch.pp).toNat = 2 + (2 * (i : Int) - st.scratch.pp).toNat by
    push_cast; omega, pow_add, mul_assoc, defect_X_sq_mul, hdefect, ← mul_assoc, ← pow_add]
  congr 2
  ring

/-- An iteration without discrepancy: the locator already solves one power sum more, hence two. -/
theorem BmTrack.succ_of_zero (hinv : BmInv t i st) (ht : BmTrack φ βs i st) (hd : BmDiscrepancyOk φ βs i st)
    (h0 : st.d = 0) : BmTrack φ βs (i + 1) st := by
  obtain ⟨V, hV, hdefect⟩ := ht.exists_defect hd
  have hmark := hinv.marker
  refine { ht with solves := X_pow_even_dvd_defect ?_, last := ht.last_succ (by omega) }
  rw [hdefect]
  exact X_pow_succ_dvd (hV.trans (h0 ▸ φ.map_zero))

/-- An iteration with a discrepancy: the shifted last-change polynomial, scaled by d / pd, cancels it. -/
theorem BmTrack.succ_of_ne (h : TablesOk m P F) (hi : i < t) (hinv : BmInv t i st) (ht : BmTrack φ βs i st)
    (hd : BmDiscrepancyOk φ βs i st) (h0 : st.d ≠ 0) (hβ : ∀ β ∈ βs, β ≠ 0) :
    BmTrack φ βs (i + 1) (bmUpdate F i st) := by
  obtain ⟨V, hV, hdefect⟩ := ht.exists_defect hd
  obtain ⟨U, hU, hlast⟩ := ht.last
  have hdeg := hinv.degrees
  have hmark := hinv.marker
  obtain ⟨kk, hkk⟩ : ∃ kk, kk = (2 * (i : Int) - st.scratch.pp).toNat := ⟨_, rfl⟩
  obtain ⟨q, hq⟩ : ∃ q, q = F.div st.d st.scratch.pd := ⟨_, rfl⟩
  have hlen : st.scratch.lb + kk < st.c.length := by rw [hinv.c_len]; omega
  have hscale : φ.toK q * φ.toK st.scratch.pd = φ.toK st.d := by
    rw [hq, ← φ.map_mul (h.elem_div _ _) ht.elem_pd, h.div_mul ht.elem_d ht.elem_pd hinv.pd_ne]
  have hpoly := φ.listPoly_bmAddShifted h ht.elem_c ht.elem_b (hq ▸ h.elem_div _ _ : F.elem q) hlen ht.b_above
  have helem := h.allElem_bmAddShifted ht.elem_c st.scratch.b st.scratch.lb kk q
  have hsolves : PowerSeries.X ^ (2 * (i + 1)) ∣
      defect (powerSums βs) (φ.listPoly (bmAddShifted F st.c st.scratch.b st.scratch.lb kk q)) := by
    refine X_pow_even_dvd_defect ?_
    rw [hpoly, defect_add, defect_C_mul, hkk, hlast, hdefect, mul_left_comm, ← mul_add]
    refine X_pow_succ_dvd ?_
    rw [map_add, map_mul, PowerSeries.constantCoeff_C, hU, hV, hscale, CharTwo.add_self_eq_zero]
  unfold bmUpdate
  rw [← hkk, ← hq]
  dsimp only
  split
  next hgt =>
    have hmin := lt_degree_of_defect (φ.natDegree_listPoly_le hinv.c_above) hdefect
      (hV ▸ fun hz => h0 ((φ.toK_eq_zero ht.elem_d).1 hz))
    rw [natDegree_locatorPoly hβ] at hmin
    refine ⟨helem, ht.elem_c, ht.elem_d, ht.elem_d, hinv.c_above, by dsimp only; omega, hsolves, V, hV, ?_⟩
    dsimp only
    rw [show (2 * ((i + 1 : Nat) : Int) - 2 * (i : Int)).toNat = 2 by push_cast; omega, defect_X_sq_mul, hdefect,
      ← mul_assoc, ← pow_add]
    congr 2
    ring
  next hle =>
    exact ⟨helem, ht.elem_b, ht.elem_d, ht.elem_pd, ht.b_above, ht.l_le, hsolves, ht.last_succ (by omega)⟩

/-! ## The discrepancy -/

variable (φ) in
/-- The syndromes as the solver reads them: the power sums of the error locators. -/
structure SyndromesOf (βs : List K) (t : Nat) (syn : List Half) : Prop where
  elem : ∀ j, F.elem (syn.getD j 0)
  coeff : ∀ j, j < 2 * t → φ.toK (syn.getD j 0) = PowerSeries.coeff j (powerSums βs)

variable {syn : List Half}

omit [CharP K 2] in
/-- What R130 computes as the next discrepancy is the next coefficient of the defect. -/
theorem discrepancyOk_bmDiscrepancy (h : TablesOk m P F) (hs : SyndromesOf φ βs t syn) (hi : i + 1 < t)
    (hc : AllElem F st.c) (hinv : BmInv t (i + 1) st) :
    F.elem (bmDiscrepancy F syn i st) ∧
      BmDiscrepancyOk φ βs (i + 1) { st with d := bmDiscrepancy F syn i st } := by
  have hl : st.l ≤ 2 * i + 1 := by
    have := hinv.degrees
    have := hinv.marker
    omega
  obtain ⟨N, hN⟩ : ∃ N, N = 2 * i + 2 := ⟨_, rfl⟩
  obtain ⟨helem, hsum⟩ := φ.toK_foldl_xor h (f := fun j => F.mul (st.c.getD j 0) (syn.getD (N - j) 0))
    (fun j => h.elem_mul _ _) (List.range' 1 st.l) (hs.elem N)
  subst hN
  refine ⟨helem, hsum.trans ?_⟩
  have hterm (j : Nat) : φ.toK (F.mul (st.c.getD j 0) (syn.getD (2 * i + 2 - j) 0)) =
      (φ.listPoly st.c).coeff j * PowerSeries.coeff (2 * i + 2 - j) (powerSums βs) := by
    rw [φ.map_mul (hc.getD j) (hs.elem _), φ.coeff_listPoly, hs.coeff _ (by omega)]
  have hzero : ∀ j, st.l < j → (φ.listPoly st.c).coeff j = 0 := fun j hj => by
    rw [φ.coeff_listPoly, hinv.c_above j hj]; exact φ.map_zero
  have hprod : PowerSeries.coeff (2 * i + 2) ((φ.listPoly st.c : PowerSeries K) * powerSums βs) =
      PowerSeries.coeff (2 * i + 2) (powerSums βs) + ∑ j ∈ Finset.range st.l,
        (φ.listPoly st.c).coeff (j + 1) * PowerSeries.coeff (2 * i + 2 - (j + 1)) (powerSums βs) := by
    have hone : (φ.listPoly st.c).coeff 0 = 1 := by rw [φ.coeff_listPoly, hinv.c_zero]; exact φ.map_one
    rw [PowerSeries.coeff_mul, Finset.Nat.sum_antidiagonal_eq_sum_range_succ_mk, Finset.sum_range_succ', add_comm]
    simp only [Polynomial.coeff_coe, hone, one_mul, Nat.sub_zero]
    refine congrArg _ (Finset.sum_subset (Finset.range_subset_range.2 (by omega)) fun j _ hj => ?_).symm
    rw [hzero (j + 1) (by simpa [Nat.lt_succ_iff] using hj), zero_mul]
  show _ = PowerSeries.coeff (2 * (i + 1)) (defect (powerSums βs) (φ.listPoly st.c))
  rw [defect, map_add, Polynomial.coeff_coe, coeff_derivative, hzero _ (by omega), zero_mul, add_zero, mul_add, hprod,
    List.range'_eq_map_range, List.map_map, sum_map_range, hs.coeff _ (by omega)]
  refine congrArg _ (Finset.sum_congr rfl fun j _ => ?_)
  rw [Function.comp_apply, hterm, Nat.add_comm]

/-! ## The whole solver -/

/-- One iteration (R130). -/
theorem bmTrack_bmIter (h : TablesOk m P F) (hs : SyndromesOf φ βs t syn) (hβ : ∀ β ∈ βs, β ≠ 0) (hi : i < t)
    (hinv : BmInv t i st) (ht : BmTrack φ βs i st) (hd : BmDiscrepancyOk φ βs i st) :
    BmTrack φ βs (i + 1) (bmIter F syn t i st) ∧
      (i + 1 < t → BmDiscrepancyOk φ βs (i + 1) (bmIter F syn t i st)) := by
  obtain ⟨st', hst'⟩ : ∃ st', st' = if st.d ≠ 0 then bmUpdate F i st else st := ⟨_, rfl⟩
  have hnext : BmTrack φ βs (i + 1) st' ∧ BmInv t (i + 1) st' := by
    rw [hst']
    split
    next h0 => exact ⟨ht.succ_of_ne h hi hinv hd h0 hβ, bmUpdate_inv F hinv h0⟩
    next h0 => exact ⟨ht.succ_of_zero hinv hd (not_not.1 h0), hinv.mono (Nat.le_succ i)⟩
  obtain ⟨ht', hinv'⟩ := hnext
  unfold bmIter
  dsimp only
  rw [← hst']
  split
  next hlt =>
    obtain ⟨helem, hok⟩ := discrepancyOk_bmDiscrepancy h hs (by omega) ht'.elem_c hinv'
    exact ⟨{ ht' with elem_d := helem }, fun _ => hok⟩
  next hge => exact ⟨ht', fun hlt => absurd hlt (by omega)⟩

omit [CharP K 2] in
/-- The locator 1 as a polynomial. -/
theorem GfEmbedding.listPoly_initialLocator (φ : GfEmbedding F K) (n : Nat) :
    φ.listPoly (1 :: List.replicate n 0) = 1 := by
  ext j
  cases j with
  | zero => simp
  | succ j =>
    rw [φ.coeff_listPoly, initialLocator_getD n (Nat.succ_pos j), coeff_one, if_neg (Nat.succ_ne_zero j)]
    exact φ.map_zero

omit [CharP K 2] in
/-- The initial values (R130). -/
theorem bmTrack_bmInit (h : TablesOk m P F) (hs : SyndromesOf φ βs t syn) :
    BmTrack φ βs 0 (bmInit syn t) ∧ (0 < t → BmDiscrepancyOk φ βs 0 (bmInit syn t)) := by
  have hone : AllElem F (1 :: List.replicate (2 * t) 0) :=
    List.forall_mem_cons.2 ⟨h.elem_one, fun c hc => (List.eq_of_mem_replicate hc) ▸ F.elem_zero⟩
  refine ⟨⟨hone, hone, hs.elem 0, h.elem_one, fun j hj => initialLocator_getD _ (Nat.zero_lt_of_lt hj),
    Nat.zero_le _, ?_, ?_⟩, fun ht => ?_⟩
  · simp
  · refine ⟨PowerSeries.X * powerSums βs + 1, ?_, ?_⟩
    · simp [bmInit]
    · show defect _ (X ^ 1 * φ.listPoly (1 :: List.replicate (2 * t) 0)) = _
      rw [φ.listPoly_initialLocator]
      simp [defect]
  · show φ.toK (syn.getD 0 0) = PowerSeries.coeff 0 (defect _ (φ.listPoly (1 :: List.replicate (2 * t) 0)))
    rw [hs.coeff 0 (by omega), φ.listPoly_initialLocator]
    simp [defect]

/-- The loop of R130, which never stops early: the degree counter is at most the number of errors. -/
theorem bmTrack_bm (h : TablesOk m P F) (hs : SyndromesOf φ βs t syn) (hβ : ∀ β ∈ βs, β ≠ 0) (hle : βs.length ≤ t) :
    BmTrack φ βs t (bm F syn t) := by
  suffices hloop : ∀ n ≤ t, ∀ st,
      st = (List.range n).foldl (fun st i => if st.l ≤ t then bmIter F syn t i st else st) (bmInit syn t) →
      BmInv t n st ∧ BmTrack φ βs n st ∧ (n < t → BmDiscrepancyOk φ βs n st) from (hloop t le_rfl _ rfl).2.1
  intro n hn
  induction n with
  | zero =>
    rintro st rfl
    exact ⟨bmInit_inv syn t, bmTrack_bmInit h hs⟩
  | succ n ih =>
    rintro st rfl
    obtain ⟨hinv, ht, hd⟩ := ih (by omega) _ rfl
    rw [List.range_succ, List.foldl_append, List.foldl_cons, List.foldl_nil, if_pos (ht.l_le.trans hle)]
    exact ⟨bmIter_inv F syn hinv, bmTrack_bmIter h hs hβ (by omega) hinv ht (hd (by omega))⟩

/-- From the syndromes of at most t errors the solver finds their locator, and its degree (R131 (f)). -/
theorem bm_of_errors (h : TablesOk m P F) (hs : SyndromesOf φ βs t syn) (hβ : ∀ β ∈ βs, β ≠ 0) (hd : βs.Nodup)
    (hle : βs.length ≤ t) :
    (bm F syn t).l = βs.length ∧ AllElem F (bm F syn t).c ∧ φ.listPoly (bm F syn t).c = locatorPoly βs := by
  have ht := bmTrack_bm h hs hβ hle
  have hinv := bm_inv F syn t
  have hdeg := φ.natDegree_listPoly_le hinv.c_above
  have hone : (φ.listPoly (bm F syn t).c).coeff 0 = 1 := by rw [φ.coeff_listPoly, hinv.c_zero]; exact φ.map_one
  have heq := eq_locatorPoly_of_defect hβ hd hle (hdeg.trans ht.l_le) hone ht.solves
  rw [heq, natDegree_locatorPoly hβ] at hdeg
  exact ⟨le_antisymm ht.l_le hdeg, ht.elem_c, heq⟩

end Solver

end Sys2Proof.Machine
end

section
/-! DECODE on a codeword with at most t errors (R140): the received remainder has the errors' power sums as syndromes,
the solver finds their locator, the search their positions, and the correction flips them back. -/

namespace Sys2Proof.Machine

open Polynomial

/-! ## The search -/

section Search

variable {m P : Nat} {F : GfTables} {K : Type} [Field K] (φ : GfEmbedding F K) {c : List Half} {l : Nat}

/-- What the search computes at α^i is the value of the locator there (R133). -/
theorem GfEmbedding.toK_locatorAt (h : TablesOk m P F) (hc : AllElem F c) (habove : ∀ j, l < j → c.getD j 0 = 0)
    (i : Nat) :
    F.elem (locatorAt F c l i) ∧ φ.toK (locatorAt F c l i) = (φ.listPoly c).eval (φ.alpha ^ i) := by
  obtain ⟨helem, hsum⟩ := φ.toK_foldl_xor h (f := fun j => F.mul (c.getD j 0) (F.pow (i * j)))
    (fun j => h.elem_mul _ _) (List.range (l + 1)) F.elem_zero
  refine ⟨helem, hsum.trans ?_⟩
  rw [sum_map_range, eval_eq_sum_range' (Nat.lt_succ_of_le (φ.natDegree_listPoly_le habove))]
  refine (congrArg (· + _) φ.map_zero).trans ((zero_add _).trans (Finset.sum_congr rfl fun j _ => ?_))
  rw [φ.map_mul (hc.getD j) (h.elem_gfPow _), φ.toK_pow h, φ.coeff_listPoly, pow_mul]

/-- The error locators of a list of positions (R126). -/
def GfEmbedding.locators (ps : List Nat) : List K := ps.map (φ.alpha ^ ·)

variable {ps : List Nat}

theorem GfEmbedding.locators_ne_zero (h : TablesOk m P F) : ∀ β ∈ φ.locators ps, β ≠ 0 := by
  intro β hβ
  obtain ⟨p, -, rfl⟩ := List.mem_map.1 hβ
  exact pow_ne_zero p (φ.alpha_ne_zero h)

theorem GfEmbedding.locators_nodup (h : TablesOk m P F) (hd : ps.Nodup) (hlt : ∀ p ∈ ps, p < F.n) :
    (φ.locators ps).Nodup :=
  hd.map_on fun p hp q hq hpq => by
    have heq := (φ.alpha_pow_eq_iff h).1 hpq
    rwa [Nat.mod_eq_of_lt (hlt p hp), Nat.mod_eq_of_lt (hlt q hq)] at heq

/-- α^q is the reciprocal of α^(n - p) for q = p alone. -/
theorem GfEmbedding.alpha_pow_mul_eq_one_iff (h : TablesOk m P F) {p q : Nat} (hp : p < F.n) (hq : q < F.n) :
    φ.alpha ^ q * φ.alpha ^ (F.n - p) = 1 ↔ q = p := by
  rw [← pow_add, ← pow_zero φ.alpha, φ.alpha_pow_eq_iff h, Nat.zero_mod]
  refine ⟨fun hmod => ?_, fun hqp => by rw [hqp, Nat.add_sub_cancel' hp.le, Nat.mod_self]⟩
  have hlt : q + (F.n - p) < 2 * F.n := by omega
  obtain hsmall | hlarge := Nat.lt_or_ge (q + (F.n - p)) F.n
  · rw [Nat.mod_eq_of_lt hsmall] at hmod
    omega
  · rw [Nat.mod_eq_sub_mod hlarge, Nat.mod_eq_of_lt (by omega)] at hmod
    omega

variable [CharP K 2]

/-- From the locator of distinct positions the search finds the positions, in descending order (R133). -/
theorem GfEmbedding.chienRoots_of_locator (h : TablesOk m P F) (hc : AllElem F c)
    (habove : ∀ j, l < j → c.getD j 0 = 0) (hloc : φ.listPoly c = locatorPoly (φ.locators ps))
    (hdesc : ps.Pairwise (· > ·)) (hlt : ∀ p ∈ ps, p < F.n) : chienRoots F c l = ps := by
  have hroot {p : Nat} (hp : p < F.n) : locatorAt F c l (F.n - p) = 0 ↔ p ∈ ps := by
    obtain ⟨helem, hval⟩ := φ.toK_locatorAt h hc habove (F.n - p)
    rw [← φ.toK_eq_zero helem, hval, hloc, eval_locatorPoly_eq_zero]
    simp only [GfEmbedding.locators, List.mem_map, exists_exists_and_eq_and]
    exact ⟨fun ⟨q, hq, hqp⟩ => (φ.alpha_pow_mul_eq_one_iff h hp (hlt q hq)).1 hqp ▸ hq,
      fun hp' => ⟨p, hp', (φ.alpha_pow_mul_eq_one_iff h hp hp).2 rfl⟩⟩
  have hmem (p : Nat) : p ∈ chienRoots F c l ↔ p ∈ ps := by
    rw [mem_chienRoots]
    exact ⟨fun ⟨hp, h0⟩ => (hroot hp).1 h0, fun hp => ⟨hlt p hp, (hroot (hlt p hp)).2 hp⟩⟩
  have hnodup {L : List Nat} (hL : L.Pairwise (· > ·)) : L.Nodup := hL.imp fun hab => Nat.ne_of_gt hab
  have hdescends := chienRoots_descending F c l
  exact ((List.perm_ext_iff_of_nodup (hnodup hdescends) (hnodup hdesc)).2 hmem).eq_of_pairwise' hdescends hdesc

end Search

/-! ## The received word -/

/-- The word received in `MSG` and `ECC` of `u` is the codeword with message `cm` and check bits `ce`, except that the
bits at the positions `ps` are flipped; there are at most t of them. -/
structure Received (u : State) (cm ce : Memory) (ps : List Nat) : Prop where
  descending : ps.Pairwise (· > ·)
  lt : ∀ p ∈ ps, p < u.k.toNat + u.ebits.toNat
  length_le : ps.length ≤ u.t.toNat
  codeword : u.divider.remainder u.k.toNat cm = unpack u.ebits.toNat ce
  msg : ∀ j, j < u.k.toNat → u.msg.bit j = (cm.bit j ^^ decide (u.k.toNat + u.ebits.toNat - 1 - j ∈ ps))
  ecc : ∀ j, j < u.ebits.toNat → u.ecc.bit j = (ce.bit j ^^ decide (u.ebits.toNat - 1 - j ∈ ps))

theorem Received.nodup {u : State} {cm ce : Memory} {ps : List Nat} (hr : Received u cm ce ps) : ps.Nodup :=
  hr.descending.imp fun hab => Nat.ne_of_gt hab

/-- The word as one polynomial (R125): the message bits above the E check bits. -/
def wordPoly (k e : Nat) (msg ecc : Memory) : Nat := unpack k msg <<< e ^^^ unpack e ecc

theorem unpack_lt (w : Nat) (buf : Memory) : unpack w buf < 2 ^ w :=
  Nat.lt_pow_two_of_testBit _ fun i hi => by rw [unpack_testBit, decide_eq_false (Nat.not_lt.2 hi), Bool.false_and]

/-- The coefficients of the word (R125). -/
theorem wordPoly_testBit (k e : Nat) (msg ecc : Memory) (p : Nat) :
    (wordPoly k e msg ecc).testBit p =
      if p < e then ecc.bit (e - 1 - p) else decide (p < k + e) && msg.bit (k + e - 1 - p) := by
  rw [wordPoly, Nat.testBit_xor, Nat.testBit_shiftLeft, unpack_testBit, unpack_testBit]
  split
  next hp => simp [hp, Nat.not_le.2 hp]
  next hp =>
    have hle : e ≤ p := Nat.not_lt.1 hp
    simp only [hp, hle, decide_true, decide_false, Bool.true_and, Bool.false_and, Bool.xor_false]
    rw [show k - 1 - (p - e) = k + e - 1 - p by omega, decide_eq_decide.2 (show p - e < k ↔ p < k + e by omega)]

/-- Flipped bits are flipped coefficients. -/
theorem Received.wordPoly_testBit {u : State} {cm ce : Memory} {ps : List Nat} (hr : Received u cm ce ps) (p : Nat) :
    (wordPoly u.k.toNat u.ebits.toNat u.msg u.ecc).testBit p =
      ((wordPoly u.k.toNat u.ebits.toNat cm ce).testBit p ^^ decide (p ∈ ps)) := by
  rw [Machine.wordPoly_testBit, Machine.wordPoly_testBit]
  split
  next hp =>
    rw [hr.ecc _ (by omega), show u.ebits.toNat - 1 - (u.ebits.toNat - 1 - p) = p by omega]
  next hp =>
    by_cases hns : p < u.k.toNat + u.ebits.toNat
    · rw [hr.msg _ (by omega), decide_eq_true hns, Bool.true_and, Bool.true_and,
        show u.k.toNat + u.ebits.toNat - 1 - (u.k.toNat + u.ebits.toNat - 1 - p) = p by omega]
    · rw [decide_eq_false hns, decide_eq_false fun hmem => hns (hr.lt p hmem)]
      rfl

section Embedded

variable {u : State} {cm ce : Memory} {ps : List Nat} {K : Type} [Field K]

theorem coeff_sum_X_pow (hd : ps.Nodup) (p : Nat) :
    ((ps.map fun q => (X : K[X]) ^ q).sum).coeff p = if p ∈ ps then 1 else 0 := by
  induction ps with
  | nil => simp
  | cons q ps ih =>
    obtain ⟨hq, hd⟩ := List.nodup_cons.1 hd
    rw [List.map_cons, List.sum_cons, coeff_add, ih hd, coeff_X_pow]
    obtain rfl | hne := eq_or_ne p q
    · simp [hq]
    · simp [hne]

variable [CharP K 2]

/-- The received word is the codeword plus the error polynomial (R126). -/
theorem Received.bitPoly_wordPoly (hr : Received u cm ce ps) :
    bitPoly K (wordPoly u.k.toNat u.ebits.toNat u.msg u.ecc) =
      bitPoly K (wordPoly u.k.toNat u.ebits.toNat cm ce) + (ps.map fun q => X ^ q).sum := by
  ext p
  rw [coeff_add, coeff_sum_X_pow hr.nodup, coeff_bitPoly, coeff_bitPoly,
    hr.wordPoly_testBit]
  by_cases hp : p ∈ ps
  · cases (wordPoly u.k.toNat u.ebits.toNat cm ce).testBit p <;> simp [hp, CharTwo.add_self_eq_zero]
  · simp [hp]

/-- At a root of g the remainder of a word has the value of the word (R127). -/
theorem eval_remainder_xor {g : Nat} (hg : 2 ≤ g) {β : K} (hβ : (bitPoly K g).eval β = 0) (k : Nat) (msg ecc : Memory) :
    (bitPoly K ((dividerOf g).remainder k msg ^^^ unpack g.log2 ecc)).eval β =
      (bitPoly K (wordPoly k g.log2 msg ecc)).eval β := by
  rw [remainder_eq hg, ← pmod_eq_atAlpha (shiftRight_log2 (by omega)) (one_le_log2 hg), wordPoly, bitPoly_xor,
    bitPoly_xor, eval_add, eval_add, eval_bitPoly_pmod K hβ]

/-- At a root of g the received remainder has the value of the error polynomial: the codeword drops out (R126). -/
theorem Received.eval_receivedRem (hok : CodeOk u) (hr : Received u cm ce ps) {β : K}
    (hβ : (bitPoly K u.gen).eval β = 0) : (bitPoly K u.receivedRem).eval β = (ps.map (β ^ ·)).sum := by
  have hword (msg ecc : Memory) := eval_remainder_xor hok.two_le_gen hβ u.k.toNat msg ecc
  rw [← hok.divider_eq, ← hok.e_eq] at hword
  have hclean : (bitPoly K (wordPoly u.k.toNat u.ebits.toNat cm ce)).eval β = 0 := by
    rw [← hword, hr.codeword, Nat.xor_self, bitPoly_zero, eval_zero]
  rw [State.receivedRem, hword, hr.bitPoly_wordPoly, eval_add, hclean, zero_add, ← coe_evalRingHom, map_list_sum,
    List.map_map]
  exact congrArg List.sum (List.map_congr_left fun p _ => by simp)

variable (φ : GfEmbedding u.tables K)

/-- The syndromes that `SYND` computes are the power sums of the error locators (R126). -/
theorem Received.syndromesOf (hf : FieldOk u) (hok : CodeOk u) (hr : Received u cm ce ps) :
    SyndromesOf φ (φ.locators ps) u.t.toNat (syndBody u).syn := by
  have hrem : u.receivedRem < 2 ^ u.ebits.toNat := Nat.xor_lt_two_pow hok.remainder_lt (unpack_lt _ _)
  constructor
  case elem =>
    intro j
    obtain hj | hj := Nat.lt_or_ge j (2 * u.t.toNat)
    · rw [syndBody_syn, syndromes_getD _ _ _ _ hj]
      exact hf.tables.elem_syndromeAt _ _ _
    · rw [syndBody_syn, List.getD_eq_default _ _ (by simpa using hj)]
      exact GfTables.elem_zero _
  case coeff =>
    intro j hj
    have hroot := φ.eval_genPoly hf.tables (t := u.t.toNat) (i := j + 1) hok.mt_lt (by omega) hj
    rw [← hok.gen_eq] at hroot
    rw [syndBody_syn, syndromes_getD _ _ _ _ hj, φ.toK_syndromeAt hf.tables hrem, hr.eval_receivedRem hok hroot,
      powerSums, PowerSeries.coeff_mk, GfEmbedding.locators, List.map_map]
    exact congrArg List.sum (List.map_congr_left fun p _ => pow_right_comm φ.alpha (j + 1) p)

end Embedded

/-! ## The stages -/

section Stages

variable {u : State} {cm ce : Memory} {ps : List Nat}

theorem Received.lt_n (hok : CodeOk u) (hr : Received u cm ce ps) : ∀ p ∈ ps, p < u.n.toNat :=
  fun p hp => (hr.lt p hp).trans_le hok.fits

/-- The solver's degree is the number of errors, and the search on its locator finds the positions (R131 (f), R133). -/
theorem Received.solve_and_search (hf : FieldOk u) (hok : CodeOk u) (hr : Received u cm ce ps) :
    (syndBody u).solve.l = ps.length ∧ chienRoots u.tables (syndBody u).solve.c ps.length = ps := by
  obtain ⟨K, _, _, ⟨φ⟩⟩ := hf.tables.exists_embedding
  have hlen : (φ.locators ps).length = ps.length := List.length_map _
  obtain ⟨hl, hc, hpoly⟩ := bm_of_errors hf.tables (hr.syndromesOf φ hf hok) (φ.locators_ne_zero hf.tables)
    (φ.locators_nodup hf.tables hr.nodup (hr.lt_n hok)) (hlen.le.trans hr.length_le)
  have habove := (bm_inv u.tables (syndBody u).syn u.t.toNat).c_above
  rw [hlen] at hl
  rw [hl] at habove
  exact ⟨hl, φ.chienRoots_of_locator hf.tables hc habove hpoly hr.descending (hr.lt_n hok)⟩

/-- A count of at most t fits a 16-bit register. -/
theorem Received.toNat_length (hr : Received u cm ce ps) : (BitVec.ofNat 16 ps.length).toNat = ps.length := by
  rw [BitVec.toNat_ofNat]
  exact Nat.mod_eq_of_lt (hr.length_le.trans_lt u.t.isLt)

theorem Received.decodeLocator_elpdeg (hf : FieldOk u) (hok : CodeOk u) (hr : Received u cm ce ps) :
    u.decodeLocator.elpdeg = BitVec.ofNat 16 ps.length :=
  congrArg (BitVec.ofNat 16) (hr.solve_and_search hf hok).1

theorem Received.decodeLocator_search (hf : FieldOk u) (hok : CodeOk u) (hr : Received u cm ce ps) :
    u.decodeLocator.search = ps := by
  rw [State.search, hr.decodeLocator_elpdeg hf hok, hr.toNat_length]
  exact (hr.solve_and_search hf hok).2

theorem Received.decodeRoots_nerr (hf : FieldOk u) (hok : CodeOk u) (hr : Received u cm ce ps) :
    u.decodeRoots.nerr = BitVec.ofNat 16 ps.length :=
  congrArg (fun L : List Nat => BitVec.ofNat 16 L.length) (hr.decodeLocator_search hf hok)

theorem Received.decodeRoots_loc (hf : FieldOk u) (hok : CodeOk u) (hr : Received u cm ce ps) {i : Nat}
    (hi : i < ps.length) : (u.decodeRoots.loc.getD i 0).toNat = ps[i] := by
  have hsearch := hr.decodeLocator_search hf hok
  have hget := State.locEntries_search_getD (s := u.decodeLocator) (i := i) (hsearch.symm ▸ hr.length_le)
    (hsearch.symm ▸ hi)
  simp only [hsearch] at hget
  show ((locEntries u.t.toNat u.decodeLocator.search).getD i 0).toNat = ps[i]
  rw [hsearch]
  exact hget

/-- `CORRECT` works through the positions of the errors. -/
theorem Received.decodeRoots_positions (hf : FieldOk u) (hok : CodeOk u) (hr : Received u cm ce ps) :
    u.decodeRoots.positions = ps := by
  have hnerr : u.decodeRoots.nerr.toNat = ps.length := by rw [hr.decodeRoots_nerr hf hok, hr.toNat_length]
  refine List.ext_getElem (by simp [State.positions, hnerr]) fun i _ hi => ?_
  simp only [State.positions, List.getElem_map, List.getElem_range, hr.decodeRoots_loc hf hok hi]

/-- What `DECODE` leaves of a word with at most t errors (R140). -/
structure Decoded (u : State) (cm ce : Memory) (ps : List Nat) (v : State) : Prop where
  rsp : v.rsp = response 0 (BitVec.ofNat 16 ps.length)
  lasterr : v.lasterr = 0
  stage : v.stage = .done
  ecc : v.ecc = u.ecc
  nerr : v.nerr = BitVec.ofNat 16 ps.length
  elpdeg : v.elpdeg = BitVec.ofNat 16 ps.length
  loc : ∀ i, (hi : i < ps.length) → (v.loc.getD i 0).toNat = ps[i]
  msg_wf : v.msg.wf = true
  msg : ∀ j, j < u.k.toNat → v.msg.bit j = cm.bit j
  padding : ∀ j, u.k.toNat ≤ j → v.msg.bit j = u.msg.bit j
  eccs : ∀ j, j < 8 * ((u.ebits.toNat + 7) / 8) → v.eccs.bit j = (decide (j < u.ebits.toNat) && ce.bit j)

/-- Without errors `DECODE` ends after its first stage. -/
theorem Received.decoded_of_synz (hf : FieldOk u) (hok : CodeOk u) (hb : BuffersOk u) (hr : Received u cm ce ps)
    (hz : (syndBody u).synz = true) : Decoded u cm ce ps (((syndBody u).setStage .done).report 0 0) := by
  obtain ⟨hmsg, -, heccs⟩ := hb
  obtain rfl : ps = [] := List.length_eq_zero_iff.1 <| by
    rw [← (hr.solve_and_search hf hok).1]
    exact congrArg BmVars.l (bm_of_zero_syndromes _ _ (syndBody_syn_getD hz))
  exact
    { rsp := rfl
      lasterr := rfl
      stage := rfl
      ecc := rfl
      nerr := rfl
      elpdeg := rfl
      loc := fun i hi => absurd hi (Nat.not_lt_zero i)
      msg_wf := hmsg
      msg := fun j hj => (hr.msg j hj).trans (Bool.xor_false _)
      padding := fun _ _ => rfl
      eccs := fun j hj => by
        refine (syndBody_eccs_bit heccs hj).trans ?_
        by_cases hlt : j < u.ebits.toNat
        · simp [hr.ecc j hlt]
        · simp [hlt] }

/-- With errors it goes through all four stages, and the flips undo the errors. -/
theorem Received.decoded_of_corrected (hf : FieldOk u) (hok : CodeOk u) (hb : BuffersOk u) (hr : Received u cm ce ps) :
    Decoded u cm ce ps ((correctBody u.decodeRoots).report 0 u.decodeRoots.nerr) := by
  obtain ⟨hmsg, -, heccs⟩ := hb
  have hps := hr.decodeRoots_positions hf hok
  have heccs' : (syndBody u).eccs.wf = true := Memory.wf_writeBytes _ _ _ heccs
  have hbits := State.corrected_bits (s := u.decodeRoots) (hps.symm ▸ hr.nodup) hmsg heccs'
  rw [hps] at hbits
  exact
    { rsp := congrArg (response 0) (hr.decodeRoots_nerr hf hok)
      lasterr := rfl
      stage := rfl
      ecc := rfl
      nerr := hr.decodeRoots_nerr hf hok
      elpdeg := hr.decodeLocator_elpdeg hf hok
      loc := fun i hi => hr.decodeRoots_loc hf hok hi
      msg_wf := (State.corrected_wf (s := u.decodeRoots) hmsg heccs').1
      msg := fun j hj => by
        refine (hbits j).1.trans ?_
        show (u.msg.bit j ^^ decide (j < u.k.toNat ∧ u.k.toNat + u.ebits.toNat - 1 - j ∈ ps)) = cm.bit j
        rw [hr.msg j hj]
        simp [hj]
      padding := fun j hj => by
        refine (hbits j).1.trans ?_
        show (u.msg.bit j ^^ decide (j < u.k.toNat ∧ u.k.toNat + u.ebits.toNat - 1 - j ∈ ps)) = u.msg.bit j
        simp [Nat.not_lt.2 hj]
      eccs := fun j hj => by
        refine (hbits j).2.trans ?_
        show ((syndBody u).eccs.bit j ^^ decide (j < u.ebits.toNat ∧ u.ebits.toNat - 1 - j ∈ ps)) = _
        rw [syndBody_eccs_bit heccs hj]
        by_cases hlt : j < u.ebits.toNat
        · simp [hlt, hr.ecc j hlt]
        · simp [hlt] }

/-- `DECODE` corrects a codeword with at most t errors. -/
theorem Received.exec_decode (hc : u.cfgstate = .code) (hf : FieldOk u) (hok : CodeOk u) (hb : BuffersOk u)
    (hr : Received u cm ce ps) : ∃ v, exec .decode u = .next v ∧ Decoded u cm ce ps v := by
  have hl : (syndBody u).solve.l ≤ u.t.toNat := (hr.solve_and_search hf hok).1.le.trans hr.length_le
  have hn : u.decodeLocator.search.length = u.decodeLocator.elpdeg.toNat := by
    rw [hr.decodeLocator_search hf hok, hr.decodeLocator_elpdeg hf hok, hr.toNat_length]
  rw [exec_decode_of_code hc]
  obtain ⟨hz, h⟩ | ⟨-, hgt, -⟩ | ⟨-, -, hne, -⟩ | ⟨-, -, -, h⟩ := decodeBody_cases u
  · exact ⟨_, congrArg Result.finish h, hr.decoded_of_synz hf hok hb hz⟩
  · exact absurd hl (Nat.not_le.2 hgt)
  · exact absurd hn hne
  · exact ⟨_, congrArg Result.finish h, hr.decoded_of_corrected hf hok hb⟩

end Stages

/-! ## After ENCODE -/

section AfterEncode

variable {s : State} {ms ec : Memory} {ps : List Nat}

/-- The state in which the host has put another message and other check bits after `ENCODE`. -/
def State.corrupted (s : State) (ms ec : Memory) : State := { s.encoded.report 0 0 with msg := ms, ecc := ec }

theorem State.corrupted_fieldOk (hf : FieldOk s) (ms ec : Memory) : FieldOk (s.corrupted ms ec) :=
  ⟨hf.tables, hf.regs⟩

theorem State.corrupted_codeOk (hok : CodeOk s) (ms ec : Memory) : CodeOk (s.corrupted ms ec) := { hok with }

/-- The check bits that `ENCODE` has written, then padding 0 (R121). -/
theorem State.encoded_ecc_bit (hecc : s.ecc.wf = true) {j : Nat}
    (hj : j < 8 * ((s.ebits.toNat + 7) / 8)) :
    s.encoded.ecc.bit j = (decide (j < s.ebits.toNat) && s.encoded.ecc.bit j) := by
  have hbit : s.encoded.ecc.bit j =
      (decide (j < s.ebits.toNat) &&
        (s.divider.remainder s.k.toNat s.msg).testBit (s.ebits.toNat - 1 - j)) := bit_writeBytes_pack hecc _ _ hj
  rw [hbit, ← Bool.and_assoc, Bool.and_self]

/-- A word that differs from the encoded one at the positions `ps` is decoded (R140). -/
theorem exec_decode_corrupted (hc : s.cfgstate = .code) (hf : FieldOk s) (hok : CodeOk s) (hb : BuffersOk s)
    (hdesc : ps.Pairwise (· > ·)) (hlt : ∀ p ∈ ps, p < s.k.toNat + s.ebits.toNat) (hlen : ps.length ≤ s.t.toNat)
    (hms : ms.wf = true) (hec : ec.wf = true)
    (hmsg : ∀ j, j < s.k.toNat → ms.bit j = (s.msg.bit j ^^ decide (s.k.toNat + s.ebits.toNat - 1 - j ∈ ps)))
    (hecc : ∀ j, j < s.ebits.toNat → ec.bit j = (s.encoded.ecc.bit j ^^ decide (s.ebits.toNat - 1 - j ∈ ps))) :
    ∃ v, exec .decode (s.corrupted ms ec) = .next v ∧
      Decoded (s.corrupted ms ec) s.msg s.encoded.ecc ps v := by
  obtain ⟨-, hwf, heccs⟩ := hb
  refine Received.exec_decode hc (State.corrupted_fieldOk hf ms ec) (State.corrupted_codeOk hok ms ec) ⟨hms, hec, heccs⟩
    { descending := hdesc, lt := hlt, length_le := hlen, msg := hmsg, ecc := hecc, codeword := ?_ }
  exact (unpack_writeBytes_pack hwf hok.remainder_lt).symm

/-- Bytes with equal bits are equal. -/
theorem Memory.read_eq_of_bits {a b : Memory} {i : Nat} (h : ∀ j, 8 * i ≤ j → j < 8 * i + 8 → a.bit j = b.bit j) :
    a.read i = b.read i :=
  BitVec.eq_of_getMsbD_eq fun j hj => by
    rw [← Memory.bit_of_byte a i hj, ← Memory.bit_of_byte b i hj]
    exact h _ (by omega) (by omega)

end AfterEncode

/-- Settles O59. -/
theorem decodeCorrectsUpToTErrors : Obligations.DecodeCorrectsUpToTErrors := by
  intro s hc hf hok hb t ht ps hdesc hlt hlen ms ec hms hec hmsg hecc
  obtain rfl : s.encoded.report 0 0 = t := by rw [exec_encode_of_code hc] at ht; cases ht; rfl
  obtain ⟨v, hv, hd⟩ := exec_decode_corrupted hc hf hok hb hdesc hlt hlen hms hec hmsg hecc
  have hnat : (BitVec.ofNat 16 ps.length).toNat = ps.length := by
    rw [BitVec.toNat_ofNat]
    exact Nat.mod_eq_of_lt (hlen.trans_lt s.t.isLt)
  refine ⟨v, hv, hd.rsp, hd.lasterr, hd.stage, hd.msg, hd.ecc, fun a ha => ?_, by rw [hd.nerr, hnat],
    by rw [hd.elpdeg, hnat], fun idx hidx => ?_⟩
  · rw [hok.eb_eq] at ha
    refine Memory.read_eq_of_bits fun j hlo hhi => ?_
    have hj : j < 8 * ((s.ebits.toNat + 7) / 8) := by omega
    exact (hd.eccs j hj).trans (State.encoded_ecc_bit hb.2.1 hj).symm
  · rw [hd.loc idx hidx, List.getD_eq_getElem _ _ hidx]

/-- Settles O60: a single error is a list of one position, and equal bits make equal buffers. -/
theorem decodeCorrectsOneError : Obligations.DecodeCorrectsOneError := by
  intro s hc hf hok hb t ht p hp ms ec hbufs
  obtain rfl : s.encoded.report 0 0 = t := by rw [exec_encode_of_code hc] at ht; cases ht; rfl
  obtain ⟨hmsg, hecc, -⟩ := id hb
  have hecc' : s.encoded.ecc.wf = true := Memory.wf_writeBytes _ _ _ hecc
  obtain ⟨hms, hec⟩ := correctOne_wf s.k.toNat s.ebits.toNat (bufs := (s.msg, s.encoded.ecc)) p ⟨hmsg, hecc'⟩
  have hmsbit := correctOne_msg_bit (k := s.k.toNat) (e := s.ebits.toNat) (p := p)
    (bufs := (s.msg, s.encoded.ecc)) hmsg
  have hecbit := correctOne_eccs_bit (k := s.k.toNat) (e := s.ebits.toNat) (p := p)
    (bufs := (s.msg, s.encoded.ecc)) hecc'
  have hbufs' : correctOne s.k.toNat s.ebits.toNat (s.msg, s.encoded.ecc) p = (ms, ec) := hbufs.symm
  rw [hbufs'] at hms hec hmsbit hecbit
  obtain ⟨v, hv, hd⟩ := exec_decode_corrupted (ps := [p]) hc hf hok hb (List.pairwise_singleton _ _)
    (by simpa using hp) hok.t_pos hms hec (fun j hj => by rw [hmsbit]; simp [hj, eq_comm])
    (fun j hj => by rw [hecbit]; simp [hj, eq_comm])
  refine ⟨v, hv, hd.rsp, hd.lasterr, hd.stage, ?_, hd.ecc, hd.nerr, hd.elpdeg, hd.loc 0 Nat.zero_lt_one⟩
  refine canonicalBuffersAreUnique _ _ hd.msg_wf hmsg fun i => Memory.read_eq_of_bits fun j _ _ => ?_
  obtain hj | hj := Nat.lt_or_ge j s.k.toNat
  · exact hd.msg j hj
  · refine (hd.padding j hj).trans ((hmsbit j).trans ?_)
    simp [Nat.not_lt.2 hj]

end Sys2Proof.Machine
end

section
/-! The exceptions (R150, R151, R155): which words are illegal, which legal commands are out of sequence, and what a
command that fails leaves behind. -/

namespace Sys2Proof.Machine

/-! ## Illegal commands (R76, R150) -/

/-- A command that names a register or a space it may not use raises `IllegalCommand` in every state (R76). -/
theorem exec_of_not_wellFormed {i : Instr} (h : WellFormed i = false) (s : State) :
    exec i s = .next { s with rsp := response 5 0, lasterr := 5 } := by
  cases i with
  | wrcsr csr v => exact exec_wrcsr_of_err (wrcsrBody_illegal (Nat.not_le.1 (of_decide_eq_false h)))
  | rdcsr csr => exact exec_rdcsr_of_none (csrNumber_reserved (Nat.not_le.1 (of_decide_eq_false h))) s
  | stb space idx d =>
    exact exec_of_body_err (e := .illegalCommand) (stbBody_illegal (Nat.not_le.1 (of_decide_eq_false h)))
  | ld space idx => exact exec_ld_reserved (Nat.not_le.1 (of_decide_eq_false h))
  | _ => cases h

/-! ## The list of R151 -/

section OutOfSequence

variable {i : Instr} {s : State}

/-- `M` and `POLY` are writable before the field is built, every other register before the code is derived (R84). -/
theorem outOfSequence_wrcsr {csr : BitVec 8} {v : Half} :
    outOfSequence (.wrcsr csr v) s = true ↔ if csr.toNat ≤ 0x01 then s.cfgstate ≠ .empty else s.cfgstate = .code := by
  rw [outOfSequence]
  split
  · exact bne_iff_ne
  · exact beq_iff_eq

/-- A field command needs a built field (R100). -/
theorem outOfSequence_of_gfSources {vs : List Half} (hvs : s.gfSources i = some vs) :
    outOfSequence i s = true ↔ s.cfgstate = .empty := by
  cases i <;> cases hvs <;> exact beq_iff_eq

/-- `LD` needs its space to be usable (R112). -/
theorem outOfSequence_ld {sp : Space} {idx : Half} :
    outOfSequence (.ld sp.number idx) s = true ↔ s.spaceUsable sp = false := by
  rw [State.spaceUsable_eq_false_iff, outOfSequence]
  split
  · exact beq_iff_eq
  · exact bne_iff_ne

/-- A stage command needs a derived code and its own `STAGE` (R124). -/
theorem outOfSequence_of_stageRequired {st : Stage} (hi : stageRequired i = some st) :
    outOfSequence i s = true ↔ s.cfgstate ≠ .code ∨ s.stage ≠ st := by
  cases i <;> cases hi <;> simp [outOfSequence]

end OutOfSequence

/-- A legal command out of sequence raises `BadSequence` and changes nothing else (R151). -/
theorem exec_of_outOfSequence {i : Instr} {s : State} (hwf : WellFormed i = true) (h : outOfSequence i s = true) :
    exec i s = .next { s with rsp := response 6 0, lasterr := 6 } := by
  cases i with
  | nop | clear | rdcsr => cases h
  | wrcsr csr v =>
    have hc := outOfSequence_wrcsr.1 h
    refine exec_wrcsr_of_err (e := .badSequence) ?_
    split at hc
    next hcsr => exact wrcsrBody_field_locked hcsr hc
    next hcsr => exact wrcsrBody_code_locked (Nat.not_le.1 hcsr) (of_decide_eq_true hwf) hc
  | gfbuild => exact exec_of_body_err (i := .gfbuild) (gfbuildBody_of_not_empty (bne_iff_ne.1 h))
  | derive => exact exec_of_body_err (i := .derive) (deriveBody_of_not_field (bne_iff_ne.1 h))
  | gfli | gfrd | gfadd | gfmul | gfdiv | gflog | gfalog =>
    exact exec_gf_of_empty rfl ((outOfSequence_of_gfSources rfl).1 h)
  | stb space idx d =>
    obtain rfl | rfl := writable_of_le (of_decide_eq_true hwf)
    · exact exec_stb_of_not_code (.inl rfl) (bne_iff_ne.1 h)
    · exact exec_stb_of_not_code (.inr rfl) (bne_iff_ne.1 h)
  | ld space idx =>
    obtain ⟨sp, rfl⟩ := exists_space_of_le (of_decide_eq_true hwf)
    exact exec_ld_unusable (outOfSequence_ld.1 h)
  | encode => exact exec_of_body_err (i := .encode) (encodeBody_of_not_code (bne_iff_ne.1 h))
  | decode => exact exec_decode_of_not_code (bne_iff_ne.1 h)
  | synd => exact exec_synd_of_not_code (bne_iff_ne.1 h)
  | bmsolve | chien | correct => exact exec_of_out_of_sequence rfl ((outOfSequence_of_stageRequired rfl).1 h)

/-! ## Legal commands in sequence -/

/-- A code that is neither `IllegalCommand` nor `BadSequence`: the command passed the checks on its word and on the
configuration and the stage it needs. -/
def Accepted (code : BitVec 8) : Prop := code ≠ 5 ∧ code ≠ 6

theorem accepted_zero : Accepted 0 := by unfold Accepted; decide

theorem accepted_err (e : Err) (h5 : e ≠ .illegalCommand) (h6 : e ≠ .badSequence) : Accepted e.code :=
  ⟨mt (Err.code_eq_five e).1 h5, mt (Err.code_eq_six e).1 h6⟩

theorem accepted_of_zero_or_four {code : BitVec 8} (h : code = 0 ∨ code = 4) : Accepted code := by
  obtain rfl | rfl := h
  · exact accepted_zero
  · exact accepted_err .uncorrectableError (by decide) (by decide)

/-- `LASTERR` after a command is the code its body ended with. -/
theorem lasterr_of_exec {i : Instr} {s t : State} (h : exec i s = .next t) : t.lasterr = (commandBody i s).code := by
  rw [exec_next_iff.1 h, State.report_lasterr]

section InSequence

variable {s : State}

theorem wrcsrBody_accepted {csr : BitVec 8} {v : Half} (hcsr : csr.toNat ≤ 0x03)
    (hc : ¬if csr.toNat ≤ 0x01 then s.cfgstate ≠ .empty else s.cfgstate = .code) :
    Accepted (wrcsrBody csr v s).code := by
  have hok : (wrcsrBody csr v s).code = 0 := by
    split at hc
    next hlo => obtain h | h := (csrNumber_writable csr).1 hlo <;> simp [wrcsrBody, h, not_not.1 hc]
    next hhi =>
      obtain h | h := (csrNumber_writable csr).2.1 (Nat.not_le.1 hhi) hcsr <;> simp [wrcsrBody, h, hc]
  exact hok ▸ accepted_zero

/-- The numbers up to 0x0E are those of registers (R25). -/
theorem exists_csrNumber_of_le {csr : BitVec 8} (h : csr.toNat ≤ 0x0E) : ∃ r, csrNumber csr = some r := by
  have hsome : (csrNumber csr).isSome = true := by
    revert csr; decide
  exact Option.isSome_iff_exists.1 hsome

theorem rdcsrBody_accepted {csr : BitVec 8} (hcsr : csr.toNat ≤ 0x0E) : Accepted (rdcsrBody csr s).code := by
  obtain ⟨r, hr⟩ := exists_csrNumber_of_le hcsr
  rw [rdcsrBody, hr]
  exact accepted_zero

theorem gfbuildBody_accepted (hc : s.cfgstate = .empty) : Accepted (gfbuildBody s).code := by
  by_cases h : Buildable s.m.toNat s.polyInUse
  · obtain ⟨A, L, -, hbody⟩ := gfbuildBody_of_buildable hc h
    rw [hbody]
    exact accepted_zero
  · rw [gfbuildBody_of_not_buildable hc h]
    exact accepted_err .invalidFieldOrder (by decide) (by decide)

/-- `DERIVE` in FIELD finds capacity for the code or reports that there is none (R90). -/
theorem deriveBody_accepted (hc : s.cfgstate = .field) : Accepted (deriveBody s).code := by
  by_cases h : s.t.toNat < 1 ∨ s.n.toNat ≤ s.m.toNat * s.t.toNat ∨ s.k.toNat < 1 ∨
      s.n.toNat < s.k.toNat + (genPoly s.tables s.m.toNat s.t.toNat).log2
  · rw [deriveBody_of_no_capacity hc h]
    exact accepted_err .capacityExceeded (by decide) (by decide)
  · simp only [not_or, not_lt, not_le] at h
    obtain ⟨ht, hmt, hk, hfit⟩ := h
    rw [deriveBody_of_capacity hc ht hmt hk hfit]
    exact accepted_zero

/-- A field command whose checks pass succeeds, or is a division by zero. -/
theorem gf_accepted_of_gfCheck_none {i : Instr} {vs : List Half} (hvs : s.gfSources i = some vs)
    (h : s.gfCheck vs = none) : Accepted (commandBody i s).code := by
  have hwrite (rd : GReg) (v : Half) : Accepted (s.gfWrite rd vs v).code := by
    rw [State.gfWrite_of_gfCheck h]
    exact accepted_zero
  cases i <;> cases hvs
  case gfli => rw [commandBody, gfliBody, h]; exact accepted_zero
  case gfrd => rw [commandBody, gfrdBody, h]; exact accepted_zero
  case gfadd => exact hwrite _ _
  case gfmul => exact hwrite _ _
  case gfdiv =>
    rw [commandBody, gfdivBody_of_gfCheck h]
    split
    · exact accepted_err .gfDivideByZero (by decide) (by decide)
    · exact accepted_zero
  case gflog => exact hwrite _ _
  case gfalog => exact hwrite _ _

/-- In a built field the checks of R100 raise `OperandRange` at most. -/
theorem gf_accepted {i : Instr} {vs : List Half} (hvs : s.gfSources i = some vs) (hc : s.cfgstate ≠ .empty) :
    Accepted (commandBody i s).code := by
  cases hcheck : s.gfCheck vs with
  | none => exact gf_accepted_of_gfCheck_none hvs hcheck
  | some e =>
    obtain ⟨he, -⟩ | ⟨-, -, rfl⟩ := (s.gfCheck_some vs e).1 hcheck
    · exact absurd he hc
    · rw [← lasterr_of_exec (exec_of_gfCheck_some hvs hcheck)]
      exact accepted_err .operandRange (by decide) (by decide)

theorem stbSpace_accepted (sp : Space) (idx : BitVec 12) (d : Byte) (hc : s.cfgstate = .code) :
    Accepted (stbSpace sp idx d s).code := by
  obtain hlen | hlen := Nat.lt_or_ge idx.toNat (s.spaceLen sp)
  · rw [stbSpace_within hc hlen]
    exact accepted_zero
  · rw [stbSpace_beyond hc hlen]
    exact accepted_err .invalidInputLength (by decide) (by decide)

theorem ldBody_accepted {sp : Space} (idx : Half) (hu : s.spaceUsable sp = true) :
    Accepted (ldBody sp.number idx s).code := by
  rw [ldBody_number, hu, if_neg (by decide)]
  split
  · exact accepted_err .invalidInputLength (by decide) (by decide)
  · exact accepted_zero

theorem decode_accepted (hc : s.cfgstate = .code) : Accepted (commandBody .decode s).code := by
  obtain ⟨t, ht, hcases⟩ := exec_decode_cases hc
  rw [← lasterr_of_exec ht]
  exact accepted_of_zero_or_four (hcases.imp And.left And.left)

theorem stage_accepted {i : Instr} {st : Stage} (hi : stageRequired i = some st)
    (h : ¬(s.cfgstate ≠ .code ∨ s.stage ≠ st)) : Accepted (commandBody i s).code := by
  rw [not_or, not_not, not_not] at h
  obtain ⟨hc, hst⟩ := h
  exact accepted_of_zero_or_four (exec_in_sequence_code hi hc hst (exec_next_iff.2 rfl))

end InSequence

/-- A legal command in sequence raises neither `IllegalCommand` nor `BadSequence` (R150, R151). -/
theorem commandBody_accepted {i : Instr} {s : State} (hwf : WellFormed i = true) (h : ¬outOfSequence i s = true) :
    Accepted (commandBody i s).code := by
  have cfgstate_eq {c : CfgState} (h : ¬(s.cfgstate != c) = true) : s.cfgstate = c := not_not.1 (mt bne_iff_ne.2 h)
  cases i with
  | nop | clear => exact accepted_zero
  | wrcsr csr v => exact wrcsrBody_accepted (of_decide_eq_true hwf) (mt outOfSequence_wrcsr.2 h)
  | rdcsr csr => exact rdcsrBody_accepted (of_decide_eq_true hwf)
  | gfbuild => exact gfbuildBody_accepted (cfgstate_eq h)
  | derive => exact deriveBody_accepted (cfgstate_eq h)
  | gfli | gfrd | gfadd | gfmul | gfdiv | gflog | gfalog =>
    exact gf_accepted rfl (mt (outOfSequence_of_gfSources rfl).2 h)
  | stb space idx d =>
    have hc : s.cfgstate = .code := cfgstate_eq h
    obtain rfl | rfl := writable_of_le (of_decide_eq_true hwf)
    · exact stbSpace_accepted .msg idx d hc
    · exact stbSpace_accepted .ecc idx d hc
  | ld space idx =>
    obtain ⟨sp, rfl⟩ := exists_space_of_le (of_decide_eq_true hwf)
    exact ldBody_accepted idx (eq_true_of_ne_false (mt outOfSequence_ld.2 h))
  | encode =>
    rw [commandBody, encodeBody_of_code (cfgstate_eq h)]
    exact accepted_zero
  | decode => exact decode_accepted (cfgstate_eq h)
  | synd =>
    rw [commandBody, State.inCode_none (cfgstate_eq h)]
    exact accepted_zero
  | bmsolve | chien | correct => exact stage_accepted rfl (mt (outOfSequence_of_stageRequired rfl).2 h)

/-! ## The statements -/

/-- Settles O11: out of sequence is `exec_of_outOfSequence`, in sequence is `commandBody_accepted`. -/
theorem badSequenceExactlyAsListed : Obligations.BadSequenceExactlyAsListed := by
  intro i s t hwf h
  by_cases hout : outOfSequence i s = true
  · obtain rfl : { s with rsp := response 6 0, lasterr := 6 } = t := by
      rw [exec_of_outOfSequence hwf hout] at h; cases h; rfl
    exact ⟨iff_of_true rfl hout, fun _ => rfl⟩
  · have haccepted := commandBody_accepted hwf hout
    rw [← lasterr_of_exec h] at haccepted
    exact ⟨iff_of_false haccepted.2 hout, fun h => absurd h hout⟩

/-- A legal command never raises `IllegalCommand`, in sequence or not. -/
theorem lasterr_ne_five_of_wellFormed {i : Instr} {s t : State} (hwf : WellFormed i = true)
    (h : exec i s = .next t) : t.lasterr ≠ 5 := by
  obtain ⟨hbad, -⟩ := badSequenceExactlyAsListed i s t hwf h
  by_cases hout : outOfSequence i s = true
  · rw [hbad.2 hout]; decide
  · rw [lasterr_of_exec h]
    exact (commandBody_accepted hwf hout).1

/-- Settles O10: a word is illegal by its decoding (R75) or by the operands it decodes to (R76). -/
theorem illegalCommandDependsOnTheWordAlone : Obligations.IllegalCommandDependsOnTheWordAlone := by
  intro w s
  unfold illegalWord
  cases hd : decode w with
  | error e => exact ⟨fun _ => execWord_of_error hd s, fun h => by cases h⟩
  | ok i =>
    rw [execWord_of_ok hd]
    exact ⟨fun h => exec_of_not_wellFormed (by simpa using h) s,
      fun h t ht => lasterr_ne_five_of_wellFormed (by simpa using h) ht⟩

/-- Settles O12: a refusal leaves the state as it was, and the four ways to find a word uncorrectable store only the
results of the stages that ran. -/
theorem failuresChangeOnlyScratch : Obligations.FailuresChangeOnlyScratch := by
  intro i s t h hfail
  obtain ⟨r, he, rfl⟩ := exec_effect h
  cases he with
  | refuse i e hne => exact ⟨fun _ => rfl, fun h4 => absurd ((Err.code_eq_four e).1 h4) hne⟩
  | noLocator => exact ⟨fun hne => absurd rfl hne, fun _ => ⟨.inl rfl, rfl⟩⟩
  | noRoots => exact ⟨fun hne => absurd rfl hne, fun _ => ⟨.inr (.inl rfl), rfl⟩⟩
  | decodeNoLocator => exact ⟨fun hne => absurd rfl hne, fun _ => ⟨.inr (.inr rfl), rfl⟩⟩
  | decodeNoRoots => exact ⟨fun hne => absurd rfl hne, fun _ => ⟨.inr (.inr rfl), rfl⟩⟩
  | _ => exact absurd rfl hfail

end Sys2Proof.Machine
end

section
/-! One step of the machine (R164, R165, R175, R178): what it does for each thing the port may hold, and that a next
state always exists. -/

namespace Sys2Proof.Machine

/-! ## The step, by what the port holds -/

/-- With nothing on the port the block waits (R165, R178). -/
theorem step_of_port_nil {s : State} (hport : s.port = []) : step s = .next s := by
  unfold step
  rw [hport]

/-- A step carries out the oldest event, on the state with that event taken off the port. -/
theorem step_of_port_cons {s : State} {ev : PortEvent} {rest : List PortEvent} (hport : s.port = ev :: rest) :
    step s = portEvent ev { s with port := rest } := by
  unfold step
  rw [hport]

/-- Hardware reset and `CLEAR` are equivalent: `CLEAR` reports what `RSP` and `LASTERR` hold at reset (R164, R165). -/
theorem portEvent_reset (s : State) : portEvent .reset s = exec .clear s := by
  rw [exec_clear, State.clear_report]
  rfl

/-! ## A next state always exists -/

/-- No command faults or is refused by the model: its end is always a report (step 5 of R81). -/
theorem exists_next_of_exec (i : Instr) (s : State) : ∃ t, exec i s = .next t :=
  ⟨_, exec_next_iff.2 rfl⟩

theorem exists_next_of_execWord (w : Word) (s : State) : ∃ t, execWord w s = .next t := by
  cases hd : decode w with
  | ok i =>
    rw [execWord_of_ok hd]
    exact exists_next_of_exec i s
  | error e => exact ⟨_, execWord_of_error hd s⟩

theorem exists_next_of_portEvent (ev : PortEvent) (s : State) : ∃ t, portEvent ev s = .next t := by
  cases ev with
  | command w => exact exists_next_of_execWord w s
  | reset => exact ⟨s.clear, rfl⟩

/-! ## The statements -/

/-- Settles O3: a step waits or carries out one port event, and every event has a next state. -/
theorem everyStepHasANextState : Obligations.EveryStepHasANextState := by
  refine ⟨exists_next_of_execWord, fun s => ?_⟩
  cases hport : s.port with
  | nil => exact ⟨s, step_of_port_nil hport⟩
  | cons ev rest =>
    rw [step_of_port_cons hport]
    exact exists_next_of_portEvent ev _

/-- Settles O5. -/
theorem stepWaitsOrResets : Obligations.StepWaitsOrResets :=
  ⟨fun _ => step_of_port_nil, fun _ _ hport => (step_of_port_cons hport).trans (portEvent_reset _)⟩

end Sys2Proof.Machine
end
